-- ==== Sys2Proof/Word.lean ====
section
/-! DEFINITION. The bit-vector types of the block: the byte of the framebuffer and of every transfer, the 16-bit operand
fields, the 36-bit request word and the 35-bit response word (spec/30_encoding.md R80, R84; spec/00_scope.md R10). -/

namespace Sys2Proof

/-- One byte: a framebuffer byte (R21) or one byte of a bus transfer (R131). -/
abbrev Byte := BitVec 8

/-- A 16-bit operand field, always read as an unsigned number (R10, R82). -/
abbrev Operand := BitVec 16

/-- The one request format `REQ`, 36 bits (R80). -/
abbrev RequestWord := BitVec 36

/-- The response format `RSP`, 35 bits (R84). -/
abbrev ResponseWord := BitVec 35

end Sys2Proof
end

