-- ==== Sys2Proof/Config.lean ====
section
/-! DEFINITION. What is fixed for the life of one block: the geometry (R7), the two closed configuration enums (R8), the
record of the fifteen open command bytes (R88) with the sink's `SINK_COLS` (R66), the host's drawing policy (R95), what a
framebuffer byte nothing has written reads as, and the free values the spec leaves open (no body: nothing can be proved
about which value they are). -/

namespace Sys2Proof

/-- Pixels per row, `WIDTH` (R7). -/
abbrev Config.width : Nat := 128

/-- Pixel rows, `HEIGHT` (R7). -/
abbrev Config.height : Nat := 64

/-- Pixel rows per page, `PAGE_H` (R7). -/
abbrev Config.pageHeight : Nat := 8

/-- Pages, `PAGES = HEIGHT / PAGE_H` (R7). -/
abbrev Config.pages : Nat := 8

/-- Bytes of the framebuffer, `FB_LEN = WIDTH * HEIGHT / 8` (R7, R21). -/
abbrev Config.fbLen : Nat := 1024

/-- The screen orientation strap, exactly two values; `Normal` is encoded 0 and `Reverse` 1 (R8, R24). -/
inductive Orientation where
  | normal
  | reverse
deriving DecidableEq, Repr

/-- The bias-ratio strap, exactly two values; `BIAS_A` (the source's "7:1") is encoded 0 and `BIAS_B` 1 (R8, R25). -/
inductive Bias where
  | biasA
  | biasB
deriving DecidableEq, Repr

/-- The open parameters of the block: the fifteen command bytes of R88, in the order of its table, and `SINK_COLS` of the
sink model (R66). They are constant for the life of the block, and every claim quantifies over them. -/
structure Params where
  biasA : Byte
  biasB : Byte
  dispNormal : Byte
  startLineBase : Byte
  powerCtrl : Byte
  regRatioBase : Byte
  regRatioOffset : Byte
  dispOn : Byte
  setContrast : Byte
  contrastValue : Byte
  rmwEnter : Byte
  rmwExit : Byte
  pageBase : Byte
  colLowBase : Byte
  colHigh : Byte
  sinkCols : Nat
deriving DecidableEq, Repr

/-- The two constraints the document puts on the command bytes: the two bias bytes differ, and the low three bits of the
page base are clear (R88). -/
abbrev Params.Legal (c : Params) : Prop := c.biasA ≠ c.biasB ∧ c.pageBase &&& 0x07 = 0

/-- PRESUMED (log entry 2), unsafe. The default column of R88 and the default `SINK_COLS` of D20: the command set of the
ST7567 family, general knowledge and not the source's. Only `State.reset` uses it. -/
def Params.defaults : Params where
  biasA := 0xA3
  biasB := 0xA2
  dispNormal := 0xA6
  startLineBase := 0x40
  powerCtrl := 0x2F
  regRatioBase := 0x20
  regRatioOffset := 0x03
  dispOn := 0xAF
  setContrast := 0x81
  contrastValue := 0x3A
  rmwEnter := 0xE0
  rmwExit := 0xEE
  pageBase := 0xB0
  colLowBase := 0x00
  colHigh := 0x10
  sinkCols := 132

/-- `DRAW_OOB_POLICY`: what the host's `draw` expansion does when one `SET_PIXEL` answers `OutOfBounds` (R95, D22). -/
inductive DrawPolicy where
  | stop
  | skip
deriving DecidableEq, Repr

/-- DESIGN CHOICE (log entry 1), unsafe. What a framebuffer byte that the memory list does not list reads as. The spec says
the power-on contents are arbitrary and stable (R38, D10), zero among them. -/
abbrev Config.unlistedByte : Byte := 0

/-- `T_RST`, the time the reset pin stays low in a reset pulse: an open parameter with no value, on which no rule and nothing in
the model depends (R11, R245; log entry 27). -/
opaque Config.resetLowTime : Nat

/-- Free value (log entry 8): the display RAM byte at (page, column) after the `n`-th disturbance of the sink, by the display RAM
before it, so that survival and loss are both among its values. -/
opaque Config.freeSinkByte : Nat → List (List (BitVec 8)) → Nat → Nat → BitVec 8

/-- Free value (log entry 8): the sink's page pointer after the `n`-th disturbance, by the one before it. -/
opaque Config.freeSinkPage : Nat → BitVec 3 → BitVec 3

/-- Free value (log entry 8): the sink's column pointer after the `n`-th disturbance, by the one before it. -/
opaque Config.freeSinkColumn : Nat → BitVec 8 → BitVec 8

/-- Free value (log entry 8): whether the sink awaits a contrast argument after the `n`-th disturbance, by whether it did before,
when that was a byte tagged `Unknown`. -/
opaque Config.freeSinkAwaits : Nat → Bool → Bool

/-- Free value (log entry 8): whether the controller is in read-modify-write mode after the `n`-th disturbance, by whether it was
before it. -/
opaque Config.freeSinkRmw : Nat → Bool → Bool

/-- Free value (log entry 17): what the column pointer, 8 bits, holds after a data byte at column 255, where `SC + 1` is 256, by
the display RAM and the page it found and the byte. -/
opaque Config.columnAfterLast : List (List (BitVec 8)) → BitVec 3 → BitVec 8 → BitVec 8

end Sys2Proof
end

