-- ==== Sys2Proof/Syntax.lean ====
section
/-! DEFINITION. The eight operations of spec/opcode_table.json as one inductive, their names, and the request as the host
presents it: one request word and, for `COMMAND` and `DATA`, the payload on port `pay` (R80 to R83). -/

namespace Sys2Proof

/-- The eight operation names, in the order of their operation numbers (R81). -/
inductive Op where
  | init
  | command
  | data
  | reset
  | backlight
  | clear
  | setPixel
  | showFb
deriving DecidableEq, Repr

/-- One operation with its operands: one constructor per row of spec/opcode_table.json. -/
inductive Instr where
  /-- `INIT` (R150). -/
  | init
  /-- `COMMAND` with its payload; the length field is the payload's length (R135, R83). -/
  | command (bytes : List Byte)
  /-- `DATA` with its payload (R136, R83). -/
  | data (bytes : List Byte)
  /-- `RESET` (R192). -/
  | reset
  /-- `BACKLIGHT`; `on` is operand `v` (R190). -/
  | backlight (on : Bool)
  /-- `CLEAR` (R116). -/
  | clear
  /-- `SET_PIXEL`; `x` is field `a`, `y` is field `b`, `value` is field `v` (R110). -/
  | setPixel (x y : Operand) (value : Bool)
  /-- `SHOW` (R170). -/
  | showFb
deriving DecidableEq, Repr

/-- The operation an instruction names. -/
def Instr.op : Instr → Op
  | .init => .init
  | .command _ => .command
  | .data _ => .data
  | .reset => .reset
  | .backlight _ => .backlight
  | .clear => .clear
  | .setPixel _ _ _ => .setPixel
  | .showFb => .showFb

/-- A request as it stands on the ports `req` and `pay` (R30, R83). -/
structure Request where
  word : RequestWord
  pay : List Byte
deriving DecidableEq, Repr

end Sys2Proof
end

