-- ==== Sys2Proof/WellFormed.lean ====
section
/-! DEFINITION. Which instructions a request can spell: a payload has at most 65535 bytes, the width of the length field
(R83, D15). Every other operand is bounded by its type. -/

namespace Sys2Proof

/-- A payload of at most `n` bytes, decided without computing the whole length as a number. -/
def atMost : List Byte → Nat → Bool
  | [], _ => true
  | _ :: _, 0 => false
  | _ :: bs, n + 1 => atMost bs n

/-- The instruction can be spelled by a request (R83: `a` = `OPLEN`, 0 to 65535 bytes). -/
def Instr.wf : Instr → Bool
  | .init => true
  | .command bytes => atMost bytes 65535
  | .data bytes => atMost bytes 65535
  | .reset => true
  | .backlight _ => true
  | .clear => true
  | .setPixel _ _ _ => true
  | .showFb => true

end Sys2Proof
end

