-- ==== Sys2Proof/Decode.lean ====
section
/-! DEFINITION. Request word to instruction and back: the four fields of R80, the eight rows of R81, the decode procedure
of R87 with the rejections of R86, the encoder written from the same tables, and the host's numbering of a row's bits. -/

namespace Sys2Proof

/-- Why a request spells no operation (R86). -/
inductive DecodeError where
  /-- The word matches no row of R81. -/
  | invalidWord
  /-- The payload on port `pay` is not exactly the one the word asks for. -/
  | payloadLength
deriving DecidableEq, Repr

/-- The request word of its fields, `op` in bits 2:0, `v` in bit 3, `a` in bits 19:4, `b` in bits 35:20 (R80). -/
def requestWord (op : BitVec 3) (v : Bool) (a b : Operand) : RequestWord :=
  (b ++ a ++ BitVec.ofBool v ++ op : BitVec (16 + 16 + 1 + 3))

/-- Field `op`, bits 2:0 (R80). -/
def fieldOp (w : RequestWord) : BitVec 3 := w.extractLsb' 0 3

/-- Field `v`, bit 3 (R80). -/
def fieldV (w : RequestWord) : Bool := w.getLsbD 3

/-- Field `a`, bits 19:4 (R80). -/
def fieldA (w : RequestWord) : Operand := w.extractLsb' 4 16

/-- Field `b`, bits 35:20 (R80). -/
def fieldB (w : RequestWord) : Operand := w.extractLsb' 20 16

/-- The operation number of each operation (R81). -/
def Op.number : Op → BitVec 3
  | .init => 0
  | .command => 1
  | .data => 2
  | .reset => 3
  | .backlight => 4
  | .clear => 5
  | .setPixel => 6
  | .showFb => 7

/-- The operation of each operation number: all eight are used (R81). -/
def opOfNumber (n : BitVec 3) : Op :=
  match n.toNat with
  | 0 => .init
  | 1 => .command
  | 2 => .data
  | 3 => .reset
  | 4 => .backlight
  | 5 => .clear
  | 6 => .setPixel
  | _ => .showFb

/-- Column `match` of R81. -/
def Op.pattern : Op → RequestWord
  | .init => 0x000000000
  | .command => 0x000000001
  | .data => 0x000000002
  | .reset => 0x000000003
  | .backlight => 0x000000004
  | .clear => 0x000000005
  | .setPixel => 0x000000006
  | .showFb => 0x000000007

/-- Column `mask` of R81. -/
def Op.mask : Op → RequestWord
  | .init => 0xFFFFFFFFF
  | .command => 0xFFFF0000F
  | .data => 0xFFFF0000F
  | .reset => 0xFFFFFFFFF
  | .backlight => 0xFFFFFFFF7
  | .clear => 0xFFFFFFFFF
  | .setPixel => 0x000000007
  | .showFb => 0xFFFFFFFFF

/-- "A word `w` spells the operation of a row when `w & mask = match`" (R81). -/
def Op.spelledBy (op : Op) (w : RequestWord) : Bool := w &&& op.mask == op.pattern

/-- The payload has exactly `n` bytes, decided without computing the whole length as a number. -/
def exactly : List Byte → Nat → Bool
  | [], 0 => true
  | [], _ + 1 => false
  | _ :: _, 0 => false
  | _ :: bs, n + 1 => exactly bs n

/-- How many payload bytes a request has, "from `op` and `a` alone": `a` when `op` is `COMMAND` or `DATA` (R83), and
none otherwise. -/
def payloadBytes (w : RequestWord) : Nat :=
  match opOfNumber (fieldOp w) with
  | .command => (fieldA w).toNat
  | .data => (fieldA w).toNat
  | .init => 0
  | .reset => 0
  | .backlight => 0
  | .clear => 0
  | .setPixel => 0
  | .showFb => 0

/-- The decode procedure of R87, total on any word and any payload: read `op`, look up the row, reject a word that does
not match it, reject a `COMMAND` or `DATA` payload that is not fully supplied (R86), otherwise answer the operation with its
operands (R82). Surplus payload bytes, those of a payload on the six operations that take none among them, are rejected the same
way, which is the model's choice (DEDUCED, log entry 14). -/
def decode (r : Request) : Except DecodeError Instr :=
  let op := opOfNumber (fieldOp r.word)
  if op.spelledBy r.word then
    if exactly r.pay (payloadBytes r.word) then
      match op with
      | .init => .ok .init
      | .command => .ok (.command r.pay)
      | .data => .ok (.data r.pay)
      | .reset => .ok .reset
      | .backlight => .ok (.backlight (fieldV r.word))
      | .clear => .ok .clear
      | .setPixel => .ok (.setPixel (fieldA r.word) (fieldB r.word) (fieldV r.word))
      | .showFb => .ok .showFb
    else .error .payloadLength
  else .error .invalidWord

/-- The request that spells an instruction, from R80 and R81: unused fields are zero. -/
def encode : Instr → Request
  | .init => ⟨requestWord Op.init.number false 0 0, []⟩
  | .command bytes => ⟨requestWord Op.command.number false (BitVec.ofNat 16 bytes.length) 0, bytes⟩
  | .data bytes => ⟨requestWord Op.data.number false (BitVec.ofNat 16 bytes.length) 0, bytes⟩
  | .reset => ⟨requestWord Op.reset.number false 0 0, []⟩
  | .backlight on => ⟨requestWord Op.backlight.number on 0 0, []⟩
  | .clear => ⟨requestWord Op.clear.number false 0 0, []⟩
  | .setPixel x y value => ⟨requestWord Op.setPixel.number value x y, []⟩
  | .showFb => ⟨requestWord Op.showFb.number false 0 0, []⟩

/-- `n` payload bytes read from the low bits of `v` upwards. -/
def bytesOfBits : Nat → Nat → List Byte
  | 0, _ => []
  | n + 1, v => BitVec.ofNat 8 v :: bytesOfBits n (v >>> 8)

/-- DESIGN CHOICE (log entry 12), safe. A request written as one number, as the host numbers an opcode-table row: the low
`nbits` bits of `w` (every bit above is 0), the request word in bits 35:0, bits 39:36 unused, and payload byte `i` in bits
`40 + 8*i` and up. -/
def requestOfBits (nbits w : Nat) : Request :=
  let v := w % 2 ^ nbits
  let word : RequestWord := BitVec.ofNat 36 v
  ⟨word, bytesOfBits (payloadBytes word) (v >>> 40)⟩

/-- The instruction the decoder reads from a row's bits; a number with a bit set in 39:36 is no request word. -/
def decodeTableWord (nbits w : Nat) : Option Instr :=
  if w % 2 ^ nbits % 2 ^ 40 < 2 ^ 36 then
    match decode (requestOfBits nbits w) with
    | .ok i => some i
    | .error _ => none
  else none

end Sys2Proof
end

