-- ==== Sys2Proof/Machine/State.lean ====
section
/-! DEFINITION. The machine's state as plain data: every row of R20, the response port (R30, R84), the payload on `pay`
(R83), the host's list of requests and the environment's answers (R247, R35), the parameters (R88), and the sink model of
the external controller (R36, R66); the reasons a step can stop; and the power-on state (R38, R230). -/

namespace Sys2Proof.Machine

/-- `LC`, the four lifecycle states in the document's order, encoded 0 to 3 (R26). -/
inductive Lifecycle where
  | uninitialized
  | reset
  | configured
  | displaying
deriving DecidableEq, Repr

/-- The three output pins (R28, R130). -/
inductive Pin where
  | dc
  | rst
  | bl
deriving DecidableEq, Repr

/-- A level a pin can be driven to (R130). -/
inductive Level where
  | low
  | high
deriving DecidableEq, Repr

/-- A pin output latch: the last level driven, or `Unknown` (R28). -/
inductive Latch where
  | unknown
  | low
  | high
deriving DecidableEq, Repr

/-- The environment's answer to a port event (R130, R131). No answer at all is an empty list of answers. -/
inductive Answer where
  | ok
  | fail
deriving DecidableEq, Repr

/-- What the block asks of the environment: a pin drive or a bus transfer (R130, R131). -/
inductive PortRequest where
  | drive (p : Pin) (l : Level)
  | send (bytes : List Byte)
deriving DecidableEq, Repr

/-- A port event as `TRACE` records it, with its answer (R33). -/
inductive Event where
  | pin (p : Pin) (l : Level) (ans : Answer)
  | bus (bytes : List Byte) (ans : Answer)
deriving DecidableEq, Repr

/-- The four results an operation can end with (R85, R200). -/
inductive Status where
  | ok
  | busError
  | pinError
  | outOfBounds
deriving DecidableEq, Repr

/-- The sequencer position `SEQ`: `Idle`, or `Busy(op, step, page)` (R32). -/
inductive Seq where
  | idle
  | busy (op : Op) (step : Nat) (page : Fin 8)
deriving DecidableEq, Repr

/-- One line of an operation's pseudocode that has a port event, with the lifecycle write that stands after it (`onOk`) or
that a raised error makes (`onFail`) (R15, R156, R193). -/
structure Line where
  port : PortRequest
  onOk : Option Lifecycle := none
  onFail : Option Lifecycle := none
deriving DecidableEq, Repr

/-- The sink model, state outside the block (R36, R66): the display RAM as eight rows of `SINK_COLS` bytes, the page pointer
`SP`, the column pointer `SC`, whether the next command byte is the contrast command's argument, and whether the controller
was told to enter read-modify-write mode and not yet to leave it (R177; DEDUCED, log entries 15 and 16). -/
structure Sink where
  ddram : List (List Byte)
  sp : BitVec 3
  sc : BitVec 8
  awaitsArg : Bool
  rmw : Bool
deriving DecidableEq, Repr

/-- The reasons the machine can stop with a fault. The spec gives the block none: its three errors are ordinary results of
an operation (R247). Both faults below are safe and no state a run reaches raises one (log entry 26). -/
inductive Fault where
  /-- Raised by `memRead` and `memWrite` for bytes outside offsets 0 to 1023, which do not exist (R50). Safe. -/
  | outsideFramebuffer (a n : Nat)
  /-- Raised by `step` in a state whose `SEQ` is a position the operation does not have (R32). Safe. -/
  | sequencerPosition (op : Op) (step : Nat)
deriving DecidableEq, Repr

/-- The reasons the model has no move (log entry 25). -/
inductive Refusal where
  /-- Raised by `exec` for an operation without a meaning; no arm of this model raises it. Safe. -/
  | notModelled (mnemonic : String)
  /-- Raised by `step` for a request word that spells no operation (R86, U8). Safe. -/
  | invalidRequest (w : RequestWord)
  /-- Raised by `step` for a payload that is not exactly the one the word asks for, and by an operation whose payload no
  request can spell (R86, U8; for surplus bytes DEDUCED, log entry 14). Safe. -/
  | payloadLength
  /-- Raised by every operation, and by the host port, for a request while `busy = 1` (R86, R219, U1). Safe. -/
  | requestWhileBusy
deriving DecidableEq, Repr

/-- The state of the machine. -/
structure State where
  /-- The framebuffer `FB` (R21): (offset, byte) pairs, offsets strictly rising, none equal to what an unlisted byte reads. -/
  fb : List Host.Cell
  /-- The orientation strap register (R24). -/
  orient : Orientation
  /-- The bias strap register (R25). -/
  bias : Bias
  /-- The lifecycle register (R26). -/
  lc : Lifecycle
  /-- The data/command select latch (R28). -/
  dc : Latch
  /-- The reset pin latch (R28). -/
  rst : Latch
  /-- The backlight pin latch (R28). -/
  bl : Latch
  /-- Operand latch `OPX` (R31). -/
  opx : Operand
  /-- Operand latch `OPY` (R31). -/
  opy : Operand
  /-- Operand latch `OPV`, one bit (R31). -/
  opv : Bool
  /-- Operand latch `OPLEN` (R31). -/
  oplen : Operand
  /-- The payload taken from `pay` when the request was accepted (R83; log entry 14). -/
  payload : List Byte
  /-- The sequencer position (R32). -/
  seq : Seq
  /-- The ghost `TRACE`, in emission order (R33). -/
  trace : List Event
  /-- The response port `rsp`: the last response word (R30, R34, R84; log entry 20). -/
  rsp : ResponseWord
  /-- The response words of the run, in request order (R247). -/
  responses : List ResponseWord
  /-- The host's requests still to be presented, in order (R35, R247; log entry 6). -/
  reqs : List Request
  /-- The environment's answers to the port events to come, in order (R35, R247; DESIGN CHOICE, log entry 13). -/
  answers : List Answer
  /-- The open parameters, constant for the life of the block (R35, R88; DESIGN CHOICE, log entry 19). -/
  params : Params
  /-- The external controller's display RAM and pointers (R36, R66). -/
  sink : Sink
  /-- The model's own counter that makes each free value of the sink a fresh one (log entry 8). -/
  free : Nat
deriving DecidableEq, Repr

/-- A sink of zeros; only `State.reset` uses it (log entry 5). -/
def Sink.blank (cols : Nat) : Sink where
  ddram := List.replicate 8 (List.replicate cols 0)
  sp := 0
  sc := 0
  awaitsArg := false
  rmw := false

/-- The power-on state (R38, R230) for the straps `orient_i` and `bias_i`, the arbitrary framebuffer, the parameters and
the sink given, with the host's requests and the environment's answers of the run (R247). The operand latches, the payload,
the response word and the counter are 0, which the spec leaves open (DESIGN CHOICE, log entry 4), unsafe. -/
def State.powerOn (params : Params) (orient : Orientation) (bias : Bias) (fb : List Host.Cell) (sink : Sink)
    (reqs : List Request) (answers : List Answer) : State where
  fb := fb
  orient := orient
  bias := bias
  lc := .uninitialized
  dc := .unknown
  rst := .unknown
  bl := .unknown
  opx := 0
  opy := 0
  opv := false
  oplen := 0
  payload := []
  seq := .idle
  trace := []
  rsp := 0
  responses := []
  reqs := reqs
  answers := answers
  params := params
  sink := sink
  free := 0

/-- The state right after power-on reset (R38) with the free choices the log names: straps `Normal` and `BIAS_A` (entry 3),
nothing listed in `FB` (entry 1), the default parameters (entry 2), a blank sink (entry 5), no request and no answer yet
(entry 6). -/
def State.reset : State :=
  State.powerOn Params.defaults .normal .biasA [] (Sink.blank Params.defaults.sinkCols) [] []

end Sys2Proof.Machine
end

