-- ==== Sys2Proof/Machine/Flags.lean ====
section
/-! DEFINITION. The block has no condition codes: its status outputs are `busy` and the fields of the response word
(R34, R84, R85). -/

namespace Sys2Proof.Machine

/-- The status codes (R85). -/
def Status.code : Status → BitVec 3
  | .ok => 0
  | .busError => 1
  | .pinError => 2
  | .outOfBounds => 3

/-- The response word of its fields: `status` in bits 2:0, `ex` in bits 18:3, `ey` in bits 34:19 (R84). -/
def responseWord (status : BitVec 3) (ex ey : Operand) : ResponseWord :=
  (ey ++ ex ++ status : BitVec (16 + 16 + 3))

/-- Field `status` of a response word (R84). -/
def rspStatus (w : ResponseWord) : BitVec 3 := w.extractLsb' 0 3

/-- Field `ex` of a response word (R84). -/
def rspX (w : ResponseWord) : Operand := w.extractLsb' 3 16

/-- Field `ey` of a response word (R84). -/
def rspY (w : ResponseWord) : Operand := w.extractLsb' 19 16

/-- The response word of a status and the two coordinate operands: `ex` and `ey` carry the operands when the status is
`OutOfBounds`, and are 0 otherwise (R84, R200). -/
def Status.word (st : Status) (x y : Operand) : ResponseWord :=
  match st with
  | .ok => responseWord Status.ok.code 0 0
  | .busError => responseWord Status.busError.code 0 0
  | .pinError => responseWord Status.pinError.code 0 0
  | .outOfBounds => responseWord Status.outOfBounds.code x y

/-- The status output `busy`: 1 when `SEQ` is not `Idle` (R30). -/
def State.busy (s : State) : Bool :=
  match s.seq with
  | .idle => false
  | .busy _ _ _ => true

end Sys2Proof.Machine
end

