-- ==== Sys2Proof/Machine/Memory.lean ====
section
/-! DEFINITION. The framebuffer as a list of (offset, byte) pairs in one canonical form: reading and writing one byte, and a
run of bytes in ascending offset (R50, R56, R58, R13). -/

namespace Sys2Proof.Machine

/-- Offsets strictly rising from `from_`, all below 1024, and no entry equal to what an unlisted byte reads as. -/
def Memory.wfFrom : Nat → List Host.Cell → Bool
  | _, [] => true
  | lo, (k, v) :: m => decide (lo ≤ k) && decide (k < Config.fbLen) && decide (v ≠ Config.unlistedByte) && Memory.wfFrom (k + 1) m

/-- The canonical form of a framebuffer. -/
def Memory.wf (m : List Host.Cell) : Bool := Memory.wfFrom 0 m

/-- One byte of a memory. -/
def Memory.read (a : Nat) : List Host.Cell → Byte
  | [] => Config.unlistedByte
  | (k, v) :: m => if k = a then v else Memory.read a m

/-- One byte written, the canonical form kept. -/
def Memory.write (a : Nat) (b : Byte) : List Host.Cell → List Host.Cell
  | [] => if b = Config.unlistedByte then [] else [(a, b)]
  | (k, v) :: m =>
    if a < k then (if b = Config.unlistedByte then (k, v) :: m else (a, b) :: (k, v) :: m)
    else if a = k then (if b = Config.unlistedByte then m else (a, b) :: m)
    else (k, v) :: Memory.write a b m

/-- The `n` bytes from offset `a` upwards, in that order (R13). -/
def Memory.readBytes (a : Nat) : Nat → List Host.Cell → List Byte
  | 0, _ => []
  | n + 1, m => Memory.read a m :: Memory.readBytes (a + 1) n m

/-- The bytes of a list written from offset `a` upwards, in that order (R13). -/
def Memory.writeBytes (a : Nat) : List Byte → List Host.Cell → List Host.Cell
  | [], m => m
  | b :: bs, m => Memory.writeBytes (a + 1) bs (Memory.write a b m)

/-- `FB[a]`, one byte of the framebuffer (R13). -/
def State.fbByte (s : State) (a : Nat) : Byte := Memory.read a s.fb

/-- Bit `bit` of `FB[a]`; bit `b` has weight `2^b` (R54). -/
def State.fbBit (s : State) (a bit : Nat) : Bool := (s.fbByte a).getLsbD bit

end Sys2Proof.Machine
end

