-- ==== Sys2Proof/Machine/Operands.lean ====
section
/-! DEFINITION. Operand forms: loading the operand latches (R31, R82), the bit-address translation and its bounds check
(R52, R111), and the composed command bytes (R89 to R91, R151 to R153). -/

namespace Sys2Proof.Machine

/-- Operand assembly on acceptance of a request: the four latches from the word's fields, `OPX` and `OPLEN` from the same
one, and the whole payload (R82, R83). They stay so after the operation's end (DESIGN CHOICE, log entry 21), unsafe. -/
def State.latchOperands (r : Request) (s : State) : State :=
  { s with
    opv := fieldV r.word
    opx := fieldA r.word
    oplen := fieldA r.word
    opy := fieldB r.word
    payload := r.pay }

/-- `InBounds(x, y)` (R111). -/
def inBounds (x y : Operand) : Bool := decide (x.toNat < Config.width) && decide (y.toNat < Config.height)

/-- `page = y / 8` (R52). -/
def pageOf (y : Operand) : Nat := y.toNat / 8

/-- `byte_offset = page * 128 + x` (R52). -/
def byteOffset (x y : Operand) : Nat := pageOf y * 128 + x.toNat

/-- `bit = y % 8` (R52). -/
def bitPosition (y : Operand) : Nat := y.toNat % 8

/-- `1 << bit`, the mask of one bit of a byte (R112, R118). -/
def bitMask (bit : Nat) : Byte := 1#8 <<< bit

/-- `WriteBit`'s new byte: the bit set or cleared, the other seven untouched (R112). -/
def withBit (old : Byte) (bit : Nat) (value : Bool) : Byte :=
  if value then old ||| bitMask bit else old &&& ~~~bitMask bit

/-- `BiasCmd(BIAS)` (R90, R151). -/
def biasCmd (c : Params) : Bias → Byte
  | .biasA => c.biasA
  | .biasB => c.biasB

/-- `SegCmd(ORIENT)`, from the document (R89). -/
def segCmd : Orientation → Byte
  | .normal => 0xA0
  | .reverse => 0xA1

/-- `ComCmd(ORIENT)`, from the document (R89). -/
def comCmd : Orientation → Byte
  | .normal => 0xC8
  | .reverse => 0xC0

/-- `StartLineCmd`: the base or'd with line 0 (R90). -/
def startLineCmd (c : Params) : Byte := c.startLineBase ||| 0

/-- `RegRatioCmd`: base or'd with the offset (R90). -/
def regRatioCmd (c : Params) : Byte := c.regRatioBase ||| c.regRatioOffset

/-- `InitByte(i)` for `i` = 0 to 9 (R153); the sequence asks for no other index. -/
def initByte (c : Params) (o : Orientation) (b : Bias) : Nat → Byte
  | 0 => biasCmd c b
  | 1 => segCmd o
  | 2 => comCmd o
  | 3 => c.dispNormal
  | 4 => startLineCmd c
  | 5 => c.powerCtrl
  | 6 => regRatioCmd c
  | 7 => c.dispOn
  | 8 => c.setContrast
  | _ => c.contrastValue

/-- `PageCmd(p)` (R91). -/
def pageCmd (c : Params) (p : Nat) : Byte := c.pageBase ||| BitVec.ofNat 8 p

/-- `ColLowCmd(ORIENT)`: the base, plus `0x04` modulo 256 in reverse orientation (R91, D17). -/
def colLowCmd (c : Params) : Orientation → Byte
  | .normal => c.colLowBase
  | .reverse => c.colLowBase + 0x04

/-- `ColHighCmd`, the same in both orientations (R91). -/
def colHighCmd (c : Params) : Byte := c.colHigh

/-- The 128-byte slice of page `p`, `FB[128p .. 128p+127]` in ascending offset (R51, R173). -/
def State.pageSlice (s : State) (p : Nat) : List Byte := Memory.readBytes (128 * p) 128 s.fb

end Sys2Proof.Machine
end

