-- ==== Sys2Proof/Machine/Sink.lean ====
section
/-! DEFINITION. The sink model of the external controller, the spec's own optional environment model (R66): what each
delivered byte does to the display RAM and the pointers. The read-modify-write flag follows R171 and R177. After a byte
tagged `Unknown` the whole sink is a free value; after a drive of the reset pin all of it but the wait for a contrast argument
is, which the byte stream alone fixes (log entry 8). -/

namespace Sys2Proof.Machine

/-- What the `n`-th disturbance makes of a sink, of `cols` columns: every component a free value of `n` and of what that component
held before, of whose survival or loss nothing is known (N11). -/
def Sink.arbitrary (σ : Sink) (cols n : Nat) : Sink where
  ddram := (List.range 8).map fun p => (List.range cols).map fun c => Config.freeSinkByte n σ.ddram p c
  sp := Config.freeSinkPage n σ.sp
  sc := Config.freeSinkColumn n σ.sc
  awaitsArg := Config.freeSinkAwaits n σ.awaitsArg
  rmw := Config.freeSinkRmw n σ.rmw

/-- "equal to `CMD_PAGE_BASE | p` for some `p` in 0 to 7 sets `SP <- p`" (R66). -/
def Sink.selectPage (c : Params) (b : Byte) (σ : Sink) : Sink :=
  match (List.range 8).find? fun p => b == c.pageBase ||| BitVec.ofNat 8 p with
  | some p => { σ with sp := BitVec.ofNat 3 p }
  | none => σ

/-- "equal to `CMD_COL_LOW_BASE + n` for some `n` in 0 to 15 sets `SC[3:0] <- n`" (R66); the sum is of natural numbers (R12), so
one above 255 is equal to no byte. -/
def Sink.selectColLow (c : Params) (b : Byte) (σ : Sink) : Sink :=
  match (List.range 16).find? fun n => b.toNat == c.colLowBase.toNat + n with
  | some n => { σ with sc := (σ.sc &&& 0xF0) ||| BitVec.ofNat 8 n }
  | none => σ

/-- "equal to `CMD_COL_HIGH | n` for some `n` in 0 to 15 sets `SC[7:4] <- n`" (R66). -/
def Sink.selectColHigh (c : Params) (b : Byte) (σ : Sink) : Sink :=
  match (List.range 16).find? fun n => b == c.colHigh ||| BitVec.ofNat 8 n with
  | some n => { σ with sc := (σ.sc &&& 0x0F) ||| (BitVec.ofNat 8 n <<< 4) }
  | none => σ

/-- The controller enters read-modify-write mode on `CMD_RMW_ENTER` and leaves it on `CMD_RMW_EXIT` (R171, R177; DEDUCED, log
entry 16). -/
def Sink.markRmw (c : Params) (b : Byte) (σ : Sink) : Sink :=
  if b = c.rmwEnter then { σ with rmw := true } else if b = c.rmwExit then { σ with rmw := false } else σ

/-- One command byte (R66). The byte that follows the contrast command is its argument and does nothing else (DEDUCED, log
entries 7 and 15). -/
def Sink.command (c : Params) (σ : Sink) (b : Byte) : Sink :=
  if σ.awaitsArg then { σ with awaitsArg := false }
  else
    { (((σ.selectPage c b).selectColLow c b).selectColHigh c b).markRmw c b with awaitsArg := b == c.setContrast }

/-- One data byte: stored at (`SP`, `SC`) when the column exists, then the column advances (R66). After column 255
the 8 bits cannot hold `SC + 1`, and the column is a free value (log entry 17). It ends the wait for a contrast argument
(DEDUCED, log entry 15). -/
def Sink.data (c : Params) (σ : Sink) (b : Byte) : Sink :=
  { σ with
    ddram := if σ.sc.toNat < c.sinkCols then σ.ddram.modify σ.sp.toNat (fun row => row.set σ.sc.toNat b) else σ.ddram
    sc := if σ.sc = 255 then Config.columnAfterLast σ.ddram σ.sp b else σ.sc + 1
    awaitsArg := false }

/-- `DDRAM[p][c]`, when the sink has that cell (R66). -/
def Sink.cell (σ : Sink) (p c : Nat) : Option Byte := σ.ddram[p]?.bind fun row => row[c]?

/-- The display RAM has eight rows of `cols` bytes (R66). -/
def Sink.sized (cols : Nat) (σ : Sink) : Bool :=
  decide (σ.ddram.length = 8) && σ.ddram.all fun row => decide (row.length = cols)

/-- After a byte tagged `Unknown`: the sink becomes a free value, each time a fresh one (R66; log entry 8). -/
def State.disturbSink (s : State) : State :=
  { s with sink := s.sink.arbitrary s.params.sinkCols s.free, free := s.free + 1 }

/-- After a drive of the reset pin: the display RAM, the pointers and the mode become free values, of which R66 says nothing.
R158 has the display RAM hold "whatever it held" after `INIT`, R194 and N11 let neither survival nor loss through the pulse be
assumed: what it holds is a free value of what it held, and survival is one such value (DESIGN CHOICE, log entry 8). Which byte is
the contrast command's argument depends on the byte stream alone, so the wait for it stays (R66). -/
def State.pulseSink (s : State) : State :=
  { s with
    sink := { s.sink.arbitrary s.params.sinkCols s.free with awaitsArg := s.sink.awaitsArg }
    free := s.free + 1 }

/-- The bytes of an answered transfer reach the sink in order, each tagged with the `DC` latch (R33, R66). -/
def State.deliver (bytes : List Byte) (s : State) : State :=
  match s.dc with
  | .low => { s with sink := bytes.foldl (Sink.command s.params) s.sink }
  | .high => { s with sink := bytes.foldl (Sink.data s.params) s.sink }
  | .unknown => if bytes = [] then s else s.disturbSink

end Sys2Proof.Machine
end

