-- ==== Sys2Proof/Machine/Ops.lean ====
section
/-! DEFINITION. The named operations the meanings are written over: framebuffer accesses (R13, R56), the two port
primitives (R130, R131) and the three procedures built from them (R132 to R134), accepting a request, ending an operation
(the one error entry of R206 and the plain return beside it, R15), and running an operation's lines in order. -/

namespace Sys2Proof.Machine

/-- `MemRead(a, n)`: the bytes `FB[a .. a+n-1]` in that order (R13). Bytes that do not exist fault (R50). -/
def State.memRead (s : State) (a n : Nat) : Except Fault (List Byte) :=
  if a + n ≤ Config.fbLen then .ok (Memory.readBytes a n s.fb) else .error (.outsideFramebuffer a n)

/-- The framebuffer's contents replaced. -/
def State.storeFb (m : List Host.Cell) (s : State) : State := { s with fb := m }

/-- `MemWrite(a, n, v)` with `n` the length of `v` (R13). Bytes that do not exist fault (R50). -/
def State.memWrite (s : State) (a : Nat) (v : List Byte) : Except Fault State :=
  if a + v.length ≤ Config.fbLen then .ok (s.storeFb (Memory.writeBytes a v s.fb))
  else .error (.outsideFramebuffer a v.length)

/-- `WriteBit(a, bit, value)`: one byte read, the bit set or cleared, the byte written back (R112). -/
def State.writeBit (s : State) (a bit : Nat) (value : Bool) : Except Fault State :=
  (s.memRead a 1).bind fun old => s.memWrite a (old.map fun b => withBit b bit value)

/-- The end of an operation, whatever its status: the response word is written, `SEQ` returns to `Idle`, and nothing else
changes (R206, R84). -/
def State.respond (st : Status) (s : State) : State :=
  { s with
    rsp := st.word s.opx s.opy
    responses := s.responses ++ [st.word s.opx s.opy]
    seq := .idle }

/-- `raise E`: the error entry, the block's only one (R206). Nothing already done is undone (R207). -/
def State.raise (e : Status) (s : State) : State := s.respond e

/-- `return OK` (R15); after it the block is idle and accepts the next request (R208). -/
def State.returnOk (s : State) : State := s.respond .ok

/-- The latch value of a level driven (R28). -/
def Level.latch : Level → Latch
  | .low => .low
  | .high => .high

/-- The latch after a drive: the level when it succeeded, `Unknown` when it failed (R28, R130). -/
def Level.latchAfter (l : Level) : Answer → Latch
  | .ok => l.latch
  | .fail => .unknown

/-- The latch of one pin written. -/
def State.setPin (p : Pin) (v : Latch) (s : State) : State :=
  match p with
  | .dc => { s with dc := v }
  | .rst => { s with rst := v }
  | .bl => { s with bl := v }

/-- What an answered drive does outside the block: a drive of the reset pin leaves the display RAM, the pointers and the mode
free values, because the spec says nothing of what the reset pulse does to them (R66, N11; log entry 8). A drive that the
environment has not answered, a hang at it included, leaves the sink as it was until the answer is taken (DESIGN CHOICE, log
entry 28), unsafe. -/
def State.pinReaches (p : Pin) (s : State) : State :=
  match p with
  | .dc => s
  | .rst => s.pulseSink
  | .bl => s

/-- An event appended to `TRACE` (R33). -/
def State.record (e : Event) (s : State) : State := { s with trace := s.trace ++ [e] }

/-- `PinDrive(p, lvl)` as the environment answers it: the latch, the trace event, the sink (R130). Raising `PinError` is
`Line`'s runner's. -/
def State.pinDrive (p : Pin) (l : Level) (a : Answer) (s : State) : State :=
  ((s.pinReaches p).setPin p (l.latchAfter a)).record (.pin p l a)

/-- `BusWrite(bytes)` as the environment answers it: the trace event, and on `ok` the delivery of all the bytes; on `fail`
none of them is delivered (R131, U7; UNVERIFIED, log entry 18). The `DC` latch is not changed. -/
def State.busWrite (bytes : List Byte) (a : Answer) (s : State) : State :=
  match a with
  | .ok => (s.deliver bytes).record (.bus bytes .ok)
  | .fail => s.record (.bus bytes .fail)

/-- A port request as the environment answers it (R130, R131). -/
def State.perform (r : PortRequest) (a : Answer) (s : State) : State :=
  match r with
  | .drive p l => s.pinDrive p l a
  | .send bytes => s.busWrite bytes a

/-- The error a failed port event raises (R201, R202). -/
def PortRequest.error : PortRequest → Status
  | .drive _ _ => .pinError
  | .send _ => .busError

/-- The event `TRACE` records for a port request (R33). -/
def PortRequest.event (r : PortRequest) (a : Answer) : Event :=
  match r with
  | .drive p l => .pin p l a
  | .send bytes => .bus bytes a

/-- `SendCommand(bytes)`: `DC` driven low, then one transfer (R132). -/
def sendCommand (bytes : List Byte) : List Line :=
  [{ port := .drive .dc .low }, { port := .send bytes }]

/-- `SendData(bytes)`: `DC` driven high, then one transfer (R133). -/
def sendData (bytes : List Byte) : List Line :=
  [{ port := .drive .dc .high }, { port := .send bytes }]

/-- `ResetPulse()`: `RST` driven low, then high (R134), with the lifecycle writes of `INIT` and `RESET` around it: `Reset`
when it succeeds, `Uninitialized` when either drive fails (R156, R193). -/
def resetPulse : List Line :=
  [{ port := .drive .rst .low, onFail := some .uninitialized },
   { port := .drive .rst .high, onOk := some .reset, onFail := some .uninitialized }]

/-- The lifecycle register written, when the line writes it (R156). -/
def State.setLc (l : Option Lifecycle) (s : State) : State :=
  match l with
  | some v => { s with lc := v }
  | none => s

/-- One answer of the environment taken. -/
def State.takeAnswer (s : State) : State := { s with answers := s.answers.tail }

/-- DEDUCED (log entry 9). The page counter at a step of `SHOW`: page `p` from step `2 + 8p` on, 0 before the loop, and 7
after it; 0 in every other operation (R32, R174). -/
def pageAt (op : Op) (step : Nat) : Fin 8 :=
  match op with
  | .showFb => ⟨min ((step - 2) / 8) 7, by omega⟩
  | .init => 0
  | .command => 0
  | .data => 0
  | .reset => 0
  | .backlight => 0
  | .clear => 0
  | .setPixel => 0

/-- The lines of an operation from step `n` on, run in order with the answers the environment has given: every line answered
`ok` is followed by the next, the first `fail` raises its error and ends the operation (R139, R206), after the last line the
operation returns `OK`, and where no answer has come the operation stays `Busy` at that line (R32, R213). -/
def State.runFrom (op : Op) : Nat → List Line → State → State
  | _, [], s => s.returnOk
  | n, l :: ls, s =>
    match s.answers with
    | [] => { s with seq := .busy op n (pageAt op n) }
    | .ok :: _ => State.runFrom op (n + 1) ls ((s.takeAnswer.perform l.port .ok).setLc l.onOk)
    | .fail :: _ => ((s.takeAnswer.perform l.port .fail).setLc l.onFail).raise l.port.error

/-- A request is accepted only when `SEQ = Idle`; the operand latches and the payload are then loaded (R30, R82). Otherwise
the model refuses it by name (R86). -/
def onAccept (i : Instr) (s : State) (body : State → Host.Outcome State Fault Refusal) :
    Host.Outcome State Fault Refusal :=
  match s.busy with
  | true => .refused .requestWhileBusy
  | false =>
    match i.wf with
    | true => body (s.latchOperands (encode i))
    | false => .refused .payloadLength

/-- A result that may fault, as the outcome of a step. -/
def orFault (r : Except Fault State) : Host.Outcome State Fault Refusal :=
  match r with
  | .ok s => .next s
  | .error f => .fault f

end Sys2Proof.Machine
end

