-- ==== Sys2Proof/Machine/Framebuffer.lean ====
section
/-! DEFINITION. The framebuffer addressing operations `SET_PIXEL` and `CLEAR` (spec/40_framebuffer_addressing.md). -/

namespace Sys2Proof.Machine

/-- `SET_PIXEL` after its operands are latched: bounds check, translation, bit write (R110). -/
def State.setPixelBody (s : State) : Except Fault State :=
  if inBounds s.opx s.opy then
    (s.writeBit (byteOffset s.opx s.opy) (bitPosition s.opy) s.opv).map State.returnOk
  else .ok (s.raise .outOfBounds)

/-- `SET_PIXEL` (R110). -/
def execSetPixel (x y : Operand) (value : Bool) (s : State) : Host.Outcome State Fault Refusal :=
  onAccept (.setPixel x y value) s fun s1 => orFault s1.setPixelBody

/-- `[0 repeated 1024 times]`, what `CLEAR` writes (R116). -/
def zeroBytes : List Byte := List.replicate Config.fbLen 0

/-- `CLEAR`: all 1024 bytes zeroed (R116). -/
def execClear (s : State) : Host.Outcome State Fault Refusal :=
  onAccept .clear s fun s1 => orFault ((s1.memWrite 0 zeroBytes).map State.returnOk)

end Sys2Proof.Machine
end

