-- ==== Sys2Proof/Machine/Init.lean ====
section
/-! DEFINITION. The initialisation sequence `INIT` (spec/42_init.md). -/

namespace Sys2Proof.Machine

/-- Byte `i` of the sequence, sent as its own one-byte command transfer (R154). `LC` becomes `Configured` when byte 6 is
accepted and `Displaying` when byte 9 is (R156). -/
def State.initLine (s : State) (i : Nat) : List Line :=
  [{ port := .drive .dc .low },
   { port := .send [initByte s.params s.orient s.bias i]
     onOk := if i = 6 then some .configured else if i = 9 then some .displaying else none }]

/-- The lines of `INIT`: the reset pulse, then the ten bytes in order (R150, R153). -/
def State.initLines (s : State) : List Line := resetPulse ++ (List.range 10).flatMap s.initLine

/-- `INIT` (R150). -/
def execInit (s : State) : Host.Outcome State Fault Refusal :=
  onAccept .init s fun s1 => .next (s1.runFrom .init 0 s1.initLines)

end Sys2Proof.Machine
end

