-- ==== Sys2Proof/Machine/Pins.lean ====
section
/-! DEFINITION. The pin operations `BACKLIGHT` and `RESET` (spec/44_backlight_reset.md). -/

namespace Sys2Proof.Machine

/-- The line of `BACKLIGHT`: high when on, low when off (R190). -/
def State.backlightLines (s : State) : List Line :=
  [{ port := .drive .bl (if s.opv then .high else .low) }]

/-- `BACKLIGHT` (R190). -/
def execBacklight (on : Bool) (s : State) : Host.Outcome State Fault Refusal :=
  onAccept (.backlight on) s fun s1 => .next (s1.runFrom .backlight 0 s1.backlightLines)

/-- `RESET`: the pulse alone, with its lifecycle writes (R192, R193). -/
def execReset (s : State) : Host.Outcome State Fault Refusal :=
  onAccept .reset s fun s1 => .next (s1.runFrom .reset 0 resetPulse)

end Sys2Proof.Machine
end

