-- ==== Sys2Proof/Machine/Present.lean ====
section
/-! DEFINITION. The page transfer `SHOW` (spec/43_present.md). -/

namespace Sys2Proof.Machine

/-- The lines of page `p`: page select, column low, column high, each its own one-byte command transfer, then the page's
slice as one data transfer (R172, R173). -/
def State.pageLines (s : State) (p : Nat) : List Line :=
  sendCommand [pageCmd s.params p] ++ sendCommand [colLowCmd s.params s.orient] ++ sendCommand [colHighCmd s.params] ++
    sendData (s.pageSlice p)

/-- The lines of `SHOW`: the read-modify-write bracket around the eight pages (R170, R171). -/
def State.showLines (s : State) : List Line :=
  sendCommand [s.params.rmwEnter] ++ (List.range Config.pages).flatMap s.pageLines ++ sendCommand [s.params.rmwExit]

/-- `SHOW` (R170). -/
def execShow (s : State) : Host.Outcome State Fault Refusal :=
  onAccept .showFb s fun s1 => .next (s1.runFrom .showFb 0 s1.showLines)

end Sys2Proof.Machine
end

