-- ==== Sys2Proof/Machine/Transfer.lean ====
section
/-! DEFINITION. The raw transfers `COMMAND` and `DATA` (spec/41_transfer_primitives.md): one `DC` drive and one transfer of
the whole payload, whatever its bytes and even when it is empty (R137). -/

namespace Sys2Proof.Machine

/-- The lines of `COMMAND` (R135). -/
def State.commandLines (s : State) : List Line := sendCommand s.payload

/-- The lines of `DATA` (R136). -/
def State.dataLines (s : State) : List Line := sendData s.payload

/-- `COMMAND` (R135). -/
def execCommand (bytes : List Byte) (s : State) : Host.Outcome State Fault Refusal :=
  onAccept (.command bytes) s fun s1 => .next (s1.runFrom .command 0 s1.commandLines)

/-- `DATA` (R136). -/
def execData (bytes : List Byte) (s : State) : Host.Outcome State Fault Refusal :=
  onAccept (.data bytes) s fun s1 => .next (s1.runFrom .data 0 s1.dataLines)

end Sys2Proof.Machine
end

