-- ==== Sys2Proof/Machine/Sequencer.lean ====
section
/-! DEFINITION. The sequencer (R32): the port events of each operation by step number, taking up an operation that waits
for an answer, and the same sequencer one answered event at a time. -/

namespace Sys2Proof.Machine

/-- The lines of an operation, numbered from step 0 (R154, R174, R246); `SET_PIXEL` and `CLEAR` have no port event. -/
def State.script (s : State) : Op → List Line
  | .init => s.initLines
  | .command => s.commandLines
  | .data => s.dataLines
  | .reset => resetPulse
  | .backlight => s.backlightLines
  | .clear => []
  | .setPixel => []
  | .showFb => s.showLines

/-- `Busy(op, step, page)` is a position the operation has (R32). -/
def State.validPosition (s : State) (op : Op) (step : Nat) (page : Fin 8) : Bool :=
  decide (step < (s.script op).length) && decide (page = pageAt op step)

/-- An operation that waits goes on from its step with the answers that have come (R32). -/
def State.resume (op : Op) (step : Nat) (page : Fin 8) (s : State) : Host.Outcome State Fault Refusal :=
  match s.validPosition op step page with
  | true => .next (s.runFrom op step ((s.script op).drop step))
  | false => .fault (.sequencerPosition op step)

/-- The sequencer moved to a step, or back to `Idle` with `OK` when the operation has no more steps (R32). -/
def State.arriveAt (op : Op) (step : Nat) (s : State) : State :=
  if step < (s.script op).length then { s with seq := .busy op step (pageAt op step) } else s.returnOk

/-- One answered port event: "`step` advances by one after each port event that the environment answers `ok`; `SEQ` returns
to `Idle` when the operation's last event is answered `ok`, or at once when any event is answered `fail`" (R32). A state that
is idle or unanswered does not move. -/
def State.sequencerStep (s : State) : State :=
  match s.seq with
  | .idle => s
  | .busy op step _ =>
    match (s.script op)[step]? with
    | none => s
    | some l =>
      match s.answers with
      | [] => s
      | .ok :: _ => ((s.takeAnswer.perform l.port .ok).setLc l.onOk).arriveAt op (step + 1)
      | .fail :: _ => ((s.takeAnswer.perform l.port .fail).setLc l.onFail).raise l.port.error

/-- `n` answered port events. -/
def State.sequencerSteps : Nat → State → State
  | 0, s => s
  | n + 1, s => State.sequencerSteps n s.sequencerStep

end Sys2Proof.Machine
end

