-- ==== Sys2Proof/Machine/Dispatch.lean ====
section
/-! DEFINITION. One arm per operation: each is one call of its meaning. -/

namespace Sys2Proof.Machine

def exec (i : Instr) (s : State) : Host.Outcome State Fault Refusal :=
  match i with
  | .init => Sys2Proof.Machine.execInit s
  | .command bytes => Sys2Proof.Machine.execCommand bytes s
  | .data bytes => Sys2Proof.Machine.execData bytes s
  | .reset => Sys2Proof.Machine.execReset s
  | .backlight on => Sys2Proof.Machine.execBacklight on s
  | .clear => Sys2Proof.Machine.execClear s
  | .setPixel x y value => Sys2Proof.Machine.execSetPixel x y value s
  | .showFb => Sys2Proof.Machine.execShow s

end Sys2Proof.Machine
end

