-- ==== Sys2Proof/Machine/Fetch.lean ====
section
/-! DEFINITION. How a request comes to run: the block fetches nothing from a memory (R64); the next request of the host's
list is presented on `req` when `SEQ = Idle` (R30). -/

namespace Sys2Proof.Machine

/-- The refusal of a request that spells no operation (R86). -/
def refusalOf (r : Request) : DecodeError → Refusal
  | .invalidWord => .invalidRequest r.word
  | .payloadLength => .payloadLength

/-- The next request is taken from the host's list, decoded and run. With no request nothing happens (R204). -/
def State.runNextRequest (s : State) : Host.Outcome State Fault Refusal :=
  match s.reqs with
  | [] => .next s
  | r :: rs =>
    match decode r with
    | .ok i => exec i { s with reqs := rs }
    | .error e => .refused (refusalOf r e)

/-- A request placed as the next one an idle block accepts. -/
def State.withRequest (s : State) (r : Request) : State := { s with seq := .idle, reqs := r :: s.reqs }

end Sys2Proof.Machine
end

