-- ==== Sys2Proof/Machine/Step.lean ====
section
/-! DEFINITION. One step. An idle block accepts the next request and runs its operation as far as the environment has
answered; a busy block goes on with the operation it is in (R32, R61). A block that waits, for a request or for an answer,
stays as it is (R204, R213). DESIGN CHOICE (log entries 10 and 11), safe. -/

namespace Sys2Proof.Machine

/-- One step of the machine. -/
def step (s : State) : Host.Outcome State Fault Refusal :=
  match s.seq with
  | .idle => s.runNextRequest
  | .busy op n page => s.resume op n page

/-- The state with the instruction of a table row's bits as the next request; the bits above `nbits` are zero. -/
def State.withFetchWord (s : State) (nbits w : Nat) : State := s.withRequest (requestOfBits nbits w)

end Sys2Proof.Machine
end

