-- ==== Sys2Proof/Machine/Driver.lean ====
section
/-! DEFINITION. What stands around the block: the host at the request port (R234, R248), the environment's answers (R130,
R131), power-on reset of the block (R230, R231), and the host's pseudo-operations `draw` and `size` (R95). -/

namespace Sys2Proof.Machine

/-- The host presents a request: only while the block is idle and no other is waiting; otherwise the model has no move
(R234, R219, U1). -/
def State.present (s : State) (r : Request) : Except Refusal State :=
  match s.busy || !s.reqs.isEmpty with
  | true => .error .requestWhileBusy
  | false => .ok { s with reqs := [r] }

/-- The environment answers the next port event (R130, R131). -/
def State.answer (s : State) (a : Answer) : State := { s with answers := s.answers ++ [a] }

/-- Power-on reset from any condition, a hang included: every piece of the block's state takes its power-on value with the
straps and the framebuffer contents given; it does nothing to the controller, and the parameters are the block's for life
(R230, R231; DEDUCED, log entry 23). -/
def State.powerCycle (s : State) (orient : Orientation) (bias : Bias) (fb : List Host.Cell) (reqs : List Request)
    (answers : List Answer) : State :=
  { State.powerOn s.params orient bias fb s.sink reqs answers with free := s.free }

/-- The pseudo-operation `size`: the constant outputs `width_o` and `height_o` (R30, R95). -/
def sizeOutputs : Nat × Nat := (Config.width, Config.height)

/-- The pseudo-operation `draw`, expanded in the host to one `SET_PIXEL` for each pair in iterator order; after an
`OutOfBounds` answer it ends (`stop`) or goes on (`skip`) (R95, D22). -/
def State.draw (policy : DrawPolicy) : List (Operand × Operand × Bool) → State → Host.Outcome State Fault Refusal
  | [], s => .next s
  | (x, y, value) :: rest, s =>
    match execSetPixel x y value s with
    | .next t =>
      if policy = .stop ∧ rspStatus t.rsp = Status.outOfBounds.code then .next t else State.draw policy rest t
    | .fault f => .fault f
    | .refused r => .refused r

end Sys2Proof.Machine
end

