-- ==== Sys2Proof/Safety.lean ====
section
/-! DEFINITION. The terms claims are stated in: when a run is over and when it hangs (R247, R213), the byte stream the
controller sees (R33), the framing of the trace (R138), and the invariant of the machine. -/

namespace Sys2Proof

open Sys2Proof.Machine

/-- How many port events each operation has on full success (R246). -/
def Op.events : Op → Nat
  | .setPixel => 0
  | .clear => 0
  | .backlight => 1
  | .reset => 2
  | .command => 2
  | .data => 2
  | .init => 22
  | .showFb => 68

/-- The parameters under which the sink model can tell `SHOW`'s command bytes apart: the contrast command is none of the
bytes before a page's data, neither column byte is a page select, the column-high byte is no column-low select, its own low
nibble is clear, and the reverse column-low byte does not wrap. R66 needs this and does not state it (log entry 7); the default
bytes meet it. -/
abbrev Params.Readable (c : Params) : Prop :=
  c.setContrast ≠ c.rmwEnter ∧ (∀ p < 8, c.setContrast ≠ pageCmd c p) ∧
  c.setContrast ≠ colLowCmd c .normal ∧ c.setContrast ≠ colLowCmd c .reverse ∧ c.setContrast ≠ colHighCmd c ∧
  (∀ p < 8, colLowCmd c .normal ≠ pageCmd c p ∧ colLowCmd c .reverse ≠ pageCmd c p ∧ colHighCmd c ≠ pageCmd c p) ∧
  (∀ n < 16, (colHighCmd c).toNat ≠ c.colLowBase.toNat + n) ∧ c.colHigh &&& 0x0F = 0 ∧ c.colLowBase.toNat + 4 ≤ 255

end Sys2Proof

namespace Sys2Proof.Machine

/-- The run is over: the host's list is exhausted and the block is idle (R247). -/
abbrev State.Final (s : State) : Prop := s.reqs = [] ∧ s.seq = .idle

/-- The block waits for an answer the environment has not given: if it never comes, a hang, which is not final (R213). -/
abbrev State.Waits (s : State) : Prop := s.busy = true ∧ s.answers = []

/-- The answer an event carries. -/
def Event.answer : Event → Answer
  | .pin _ _ a => a
  | .bus _ a => a

/-- The latch after an event, as the trace alone tells it. -/
def Event.dcAfter (dc : Latch) : Event → Latch
  | .pin .dc l a => l.latchAfter a
  | .pin .rst _ _ => dc
  | .pin .bl _ _ => dc
  | .bus _ _ => dc

/-- The byte stream seen by the controller: the bytes of every answered transfer in order, each tagged with the `DC` level
at the time (R33). -/
def taggedStream : Latch → List Event → List (Latch × Byte)
  | _, [] => []
  | dc, .bus bytes .ok :: es => bytes.map (fun b => (dc, b)) ++ taggedStream dc es
  | dc, .bus _ .fail :: es => taggedStream dc es
  | dc, .pin p l a :: es => taggedStream ((Event.pin p l a).dcAfter dc) es

/-- Whether the next command byte is the contrast command's argument, by the parameters, whether the one after the stream's start
is, and the tagged byte stream alone (R66; log entry 15 for a data byte in between). -/
def contrastWait (c : Params) : Bool → List (Latch × Byte) → Bool
  | w, [] => w
  | w, (dc, b) :: bs => contrastWait c (decide (dc = .low) && !w && decide (b = c.setContrast)) bs

/-- Every `Bus` event is immediately preceded by a `Pin(DC, _, ok)` event (R138); `ready` says whether the event before the
list was one. -/
def framedFrom : Bool → List Event → Bool
  | _, [] => true
  | _, .pin p _ a :: es => framedFrom (decide (p = .dc) && decide (a = .ok)) es
  | ready, .bus _ _ :: es => ready && framedFrom false es

/-- What one pin's latch holds after some events: the last level driven, or `Unknown` after a failed drive (R28). -/
def latchOf (p : Pin) : Latch → List Event → Latch
  | v, [] => v
  | v, .pin q l a :: es => latchOf p (if q = p then l.latchAfter a else v) es
  | v, .bus _ _ :: es => latchOf p v es

/-- Step `n` of `INIT` by its number: steps 0 and 1 are the pulse, step `2 + 2i` the `DC` drive and step `3 + 2i` the
transfer of byte `i` (R154). -/
def initStep (s : State) (n : Nat) : PortRequest :=
  if n = 0 then .drive .rst .low
  else if n = 1 then .drive .rst .high
  else if n % 2 = 0 then .drive .dc .low
  else .send [initByte s.params s.orient s.bias ((n - 3) / 2)]

/-- Step `n` of `SHOW` by its number: 0 and 1 enter, 66 and 67 exit, and `2 + 8p` to `9 + 8p` are page `p` (R174). -/
def showStep (s : State) (n : Nat) : PortRequest :=
  if n = 0 then .drive .dc .low
  else if n = 1 then .send [s.params.rmwEnter]
  else if n = 66 then .drive .dc .low
  else if n = 67 then .send [s.params.rmwExit]
  else if (n - 2) % 8 = 1 then .send [pageCmd s.params ((n - 2) / 8)]
  else if (n - 2) % 8 = 3 then .send [colLowCmd s.params s.orient]
  else if (n - 2) % 8 = 5 then .send [colHighCmd s.params]
  else if (n - 2) % 8 = 6 then .drive .dc .high
  else if (n - 2) % 8 = 7 then .send (s.pageSlice ((n - 2) / 8))
  else .drive .dc .low

/-- The port event of an operation at a step, by its number (R132 to R134, R154, R174, R190). -/
def State.portStep (s : State) (op : Op) (n : Nat) : PortRequest :=
  match op with
  | .init => initStep s n
  | .command => if n = 0 then .drive .dc .low else .send s.payload
  | .data => if n = 0 then .drive .dc .high else .send s.payload
  | .reset => if n = 0 then .drive .rst .low else .drive .rst .high
  | .backlight => .drive .bl (if s.opv then .high else .low)
  | .clear => .send []
  | .setPixel => .send []
  | .showFb => showStep s n

/-- The events of the first `k` steps of an operation, all answered `ok`. -/
def State.okEvents (s : State) (op : Op) (k : Nat) : List Event := (List.range k).map fun n => (s.portStep op n).event .ok

/-- The lifecycle register after `k` steps answered `ok` and, when `failed`, one answered `fail` (R156, R193). -/
def lifecycleAfter (op : Op) (k : Nat) (failed : Bool) (l : Lifecycle) : Lifecycle :=
  match op with
  | .init =>
    if k < 2 then (if failed then .uninitialized else l)
    else if k < 16 then .reset
    else if k < 22 then .configured
    else .displaying
  | .reset => if k < 2 then (if failed then .uninitialized else l) else .reset
  | .command => l
  | .data => l
  | .backlight => l
  | .clear => l
  | .setPixel => l
  | .showFb => l

/-- A response word R84 and R85 allow: codes 4 to 7 never, and no coordinates unless the status is `OutOfBounds`. -/
def properResponse (w : ResponseWord) : Bool :=
  decide ((rspStatus w).toNat ≤ 3) && (decide (rspStatus w = Status.outOfBounds.code) || decide (rspX w = 0 ∧ rspY w = 0))

/-- A busy block that is about to make a transfer has just driven `DC` with success, to the level of the line before, and
its latch still holds it (R132, R133, R138). -/
def State.transferReady (s : State) (op : Op) (step : Nat) : Prop :=
  ∀ bytes, (s.script op)[step]?.map Line.port = some (.send bytes) →
    ∃ l, 0 < step ∧ (s.script op)[step - 1]?.map Line.port = some (.drive .dc l) ∧
      s.trace.getLast? = some (.pin .dc l .ok) ∧ s.dc = l.latch

/-- The sequencer's part of the invariant: a busy block stands at a step its operation has, with the payload the length
latch says, and ready for the transfer if that step is one (R32, R83, R138). -/
def State.seqOk (s : State) : Prop :=
  ∀ op step page, s.seq = .busy op step page →
    s.validPosition op step page = true ∧ (op = .command ∨ op = .data → s.payload.length = s.oplen.toNat) ∧
      s.transferReady op step

/-- The invariant of the machine. -/
structure State.Inv (s : State) : Prop where
  /-- The framebuffer keeps its canonical form inside its 1024 bytes (R21, R22). -/
  fb : Memory.wf s.fb = true
  /-- The parameters meet the document's two constraints (R88). -/
  params : s.params.Legal
  /-- `OPX` and `OPLEN` come from the same field (R82). -/
  latches : s.opx = s.oplen
  /-- The sequencer's position is one the operation has (R32). -/
  seq : s.seqOk
  /-- Every transfer in the trace is framed by its `DC` drive (R138). -/
  trace : framedFrom false s.trace = true
  /-- The response port holds the last response (R84, R247). -/
  rsp : ∀ w, s.responses.getLast? = some w → s.rsp = w
  /-- Every response word is one the block may produce (R84, R85). -/
  responses : s.responses.all properResponse = true
  /-- The sink's display RAM keeps its size (R66). -/
  sink : s.sink.sized s.params.sinkCols = true

end Sys2Proof.Machine
end

