-- ==== Sys2Proof/Certificates/Slice0/Obligations.lean ====
section
/-! DEFINITION. The statements for the provers, family by family. Each docstring names the rule of spec/ it formalises, and
where a clause is the model's own choice the log entry. -/

open Sys2Proof Sys2Proof.Machine

/-! ### Encoding -/

/-- Decoding the request an instruction is encoded as gives the instruction back, whatever its operands (R80 to R83, R87). -/
def Obligations.DecodeOfEncodeIsTheInstruction : Prop :=
  ∀ i : Instr, i.wf = true → decode (encode i) = .ok i

/-- A request that decodes is exactly the one its instruction is encoded as: no bit of a word and no byte of a payload is
dropped (R80 to R83, R87). That a request with payload bytes beyond those its word asks for does not decode is the model's choice
(log entry 14, DEDUCED). -/
def Obligations.EncodeOfDecodeIsTheRequest : Prop :=
  ∀ (r : Request) (i : Instr), decode r = .ok i → encode i = r ∧ i.wf = true

/-- A request word is its four fields at the bit positions of R80, bit 0 the least significant. -/
def Obligations.RequestWordFieldsStandAtTheirBits : Prop :=
  (∀ w : RequestWord, w.toNat = (fieldOp w).toNat + 2 ^ 3 * (fieldV w).toNat + 2 ^ 4 * (fieldA w).toNat + 2 ^ 20 * (fieldB w).toNat) ∧
  ∀ (op : BitVec 3) (v : Bool) (a b : Operand),
    (requestWord op v a b).toNat = op.toNat + 2 ^ 3 * v.toNat + 2 ^ 4 * a.toNat + 2 ^ 20 * b.toNat

/-- The rows of R81 are mutually exclusive, a word that spells a row decodes to that row's operation or to nothing, and a
word is invalid exactly when it spells no row (R81, R86, R87). -/
def Obligations.WordsSpellAtMostOneRow : Prop :=
  (∀ (w : RequestWord) (p q : Op), p.spelledBy w = true → q.spelledBy w = true → p = q) ∧
  (∀ (r : Request) (i : Instr), decode r = .ok i → ∀ p : Op, p.spelledBy r.word = true ↔ p = i.op) ∧
  ∀ r : Request, decode r = .error .invalidWord ↔ ∀ p : Op, p.spelledBy r.word = false

/-- A request whose word spells a row decodes exactly when the payload on `pay` has as many bytes as the word asks for:
`a` for `COMMAND` and `DATA` (R83), none otherwise; any other is rejected by name. For a `COMMAND` or `DATA` whose payload is not
fully supplied that is R86; for surplus bytes, those of a payload on the six operations that take none among them, it is the
model's choice (log entry 14, DEDUCED). -/
def Obligations.PayloadMustBeFullySupplied : Prop :=
  ∀ (r : Request) (p : Op), p.spelledBy r.word = true →
    ((∃ i, decode r = .ok i) ↔
      r.pay.length = if p = .command ∨ p = .data then (fieldA r.word).toNat else 0) ∧
    (decode r = .error .payloadLength ↔
      r.pay.length ≠ if p = .command ∨ p = .data then (fieldA r.word).toNat else 0)

/-- The words of R94 decode to the operations they spell. -/
def Obligations.WrittenWordsDecode : Prop :=
  decode ⟨0x000000000, []⟩ = .ok .init ∧
  decode ⟨0x000000011, [0xA6]⟩ = .ok (.command [0xA6]) ∧
  decode ⟨0x000000022, [0xFF, 0x00]⟩ = .ok (.data [0xFF, 0x00]) ∧
  decode ⟨0x000000003, []⟩ = .ok .reset ∧
  decode ⟨0x00000000C, []⟩ = .ok (.backlight true) ∧
  decode ⟨0x000000004, []⟩ = .ok (.backlight false) ∧
  decode ⟨0x000000005, []⟩ = .ok .clear ∧
  decode ⟨0x000A0005E, []⟩ = .ok (.setPixel 5 10 true) ∧
  decode ⟨0x003F007F6, []⟩ = .ok (.setPixel 127 63 false) ∧
  decode ⟨0x000000007, []⟩ = .ok .showFb

/-- The response word is `status` in bits 2:0, `ex` in bits 18:3 and `ey` in bits 34:19; the codes are 0 to 3 in the order of
the taxonomy; `ex` and `ey` are the operands when the status is `OutOfBounds` and 0 otherwise (R84, R85). -/
def Obligations.ResponseWordFieldsStandAtTheirBits : Prop :=
  ∀ (st : Status) (x y : Operand),
    (st.word x y).toNat =
      (match st with
        | .ok => 0
        | .busError => 1
        | .pinError => 2
        | .outOfBounds => 3 + 2 ^ 3 * x.toNat + 2 ^ 19 * y.toNat) ∧
    rspStatus (st.word x y) = st.code ∧
    rspX (st.word x y) = (if st = .outOfBounds then x else 0) ∧
    rspY (st.word x y) = (if st = .outOfBounds then y else 0)

/-! ### Composed command bytes -/

/-- The segment-direction and COM-direction bytes by orientation: `0xA0` and `0xC8`, or `0xA1` and `0xC0` (R89). -/
def Obligations.OrientationFlipsBothDirections : Prop :=
  (segCmd .normal = 0xA0 ∧ comCmd .normal = 0xC8) ∧ (segCmd .reverse = 0xA1 ∧ comCmd .reverse = 0xC0)

/-- The ten bytes of `INIT` in their fixed order, by the parameters and the two straps (R90, R151, R152, R153). -/
def Obligations.InitBytesInFixedOrder : Prop :=
  ∀ (c : Params) (o : Orientation) (b : Bias),
    (List.range 10).map (initByte c o b) =
      [(match b with | .biasA => c.biasA | .biasB => c.biasB),
       (match o with | .normal => 0xA0 | .reverse => 0xA1),
       (match o with | .normal => 0xC8 | .reverse => 0xC0),
       c.dispNormal, c.startLineBase, c.powerCtrl, c.regRatioBase ||| c.regRatioOffset, c.dispOn, c.setContrast,
       c.contrastValue]

/-- With the base's low three bits clear, a page-select byte carries the page in its low three bits and the base in the
others; the column-low byte is the base, plus 4 modulo 256 in reverse orientation; the column-high byte is the same in both
(R91). -/
def Obligations.ShowAddressBytes : Prop :=
  ∀ c : Params, c.Legal →
    (∀ p < 8, ((pageCmd c p).extractLsb' 0 3).toNat = p ∧ (pageCmd c p).extractLsb' 3 5 = c.pageBase.extractLsb' 3 5) ∧
    (colLowCmd c .normal).toNat = c.colLowBase.toNat ∧
    (colLowCmd c .reverse).toNat = (c.colLowBase.toNat + 4) % 256 ∧
    colHighCmd c = c.colHigh

/-! ### Power-on -/

/-- After power-on, for every strap setting, framebuffer contents, parameters, sink and run: `LC` is `Uninitialized`, the
three latches are `Unknown`, `SEQ` is `Idle`, `busy` is 0, `TRACE` is empty, the straps and the framebuffer are the ones
given (R38, R230). -/
def Obligations.PowerOnState : Prop :=
  ∀ (c : Params) (o : Orientation) (b : Bias) (m : List Host.Cell) (σ : Sink) (rs : List Request) (as : List Answer),
    let s := State.powerOn c o b m σ rs as
    s.lc = .uninitialized ∧ s.dc = .unknown ∧ s.rst = .unknown ∧ s.bl = .unknown ∧ s.seq = .idle ∧ s.busy = false ∧
    s.trace = [] ∧ s.responses = [] ∧ s.orient = o ∧ s.bias = b ∧ s.fb = m ∧ s.params = c ∧ s.sink = σ

/-- Power-on reset brings the block from any condition back to `Idle` with its power-on values, samples the straps, and does
nothing to the controller (R230, R231). -/
def Obligations.PowerCycleFromAnyCondition : Prop :=
  ∀ (s : State) (o : Orientation) (b : Bias) (m : List Host.Cell) (rs : List Request) (as : List Answer),
    let t := s.powerCycle o b m rs as
    t.seq = .idle ∧ t.lc = .uninitialized ∧ t.dc = .unknown ∧ t.rst = .unknown ∧ t.bl = .unknown ∧ t.trace = [] ∧
    t.orient = o ∧ t.bias = b ∧ t.fb = m ∧ t.params = s.params ∧ t.sink = s.sink

/-- The reset state is one of the power-on states of R38; which one is the model's choice (log entries 1 to 6): straps
`Normal` and `BIAS_A`, nothing listed in `FB`, no request and no answer yet. -/
def Obligations.ResetIsAPowerOnState : Prop :=
  State.reset = State.powerOn Params.defaults .normal .biasA [] (Sink.blank 132) [] [] ∧ Params.defaults.Legal ∧
  Params.defaults.Readable

/-! ### The bit-address translation -/

/-- The map from pixel to byte offset and bit is a bijection between the 8192 pixels and the 8192 bits of `FB`, with the
inverse R52 gives. -/
def Obligations.TranslationIsABijection : Prop :=
  (∀ x y : Operand, x.toNat ≤ 127 → y.toNat ≤ 63 →
    byteOffset x y = y.toNat / 8 * 128 + x.toNat ∧ bitPosition y = y.toNat % 8 ∧
    byteOffset x y < 1024 ∧ bitPosition y < 8 ∧
    byteOffset x y % 128 = x.toNat ∧ byteOffset x y / 128 * 8 + bitPosition y = y.toNat) ∧
  ∀ a b, a < 1024 → b < 8 → ∃ x y : Operand, x.toNat ≤ 127 ∧ y.toNat ≤ 63 ∧ byteOffset x y = a ∧ bitPosition y = b ∧
    ∀ x' y' : Operand, x'.toNat ≤ 127 → y'.toNat ≤ 63 → byteOffset x' y' = a → bitPosition y' = b → x' = x ∧ y' = y

/-- The bit-slice form of the translation: `page = y[5:3]`, `bit = y[2:0]`, `byte_offset = {y[5:3], x[6:0]}`, which is from 0 to
1023, and the 13-bit linear bit address `{y[5:3], x[6:0], y[2:0]}` is `byte_offset * 8 + bit` (R53). -/
def Obligations.TranslationByBitSlices : Prop :=
  ∀ x y : Operand, x.toNat ≤ 127 → y.toNat ≤ 63 →
    pageOf y = (y.extractLsb' 3 3).toNat ∧ byteOffset x y ≤ 1023 ∧
    byteOffset x y = (y.extractLsb' 3 3 ++ x.extractLsb' 0 7 : BitVec 10).toNat ∧
    bitPosition y = (y.extractLsb' 0 3).toNat ∧
    byteOffset x y * 8 + bitPosition y = (y.extractLsb' 3 3 ++ x.extractLsb' 0 7 ++ y.extractLsb' 0 3 : BitVec 13).toNat

/-- `InBounds(x, y)` is `x < 128 and y < 64`, equivalently `x[15:7] = 0 and y[15:6] = 0` (R111). -/
def Obligations.BoundsCheckByHighBits : Prop :=
  ∀ x y : Operand,
    (inBounds x y = true ↔ x.toNat < 128 ∧ y.toNat < 64) ∧
    (inBounds x y = true ↔ x.extractLsb' 7 9 = 0 ∧ y.extractLsb' 6 10 = 0)

/-! ### SET_PIXEL and CLEAR -/

/-- `SET_PIXEL` on a pixel of the screen completes with `OK`; the translated bit holds the value, every other bit of that byte
and every other byte of `FB` reads as before, and nothing but the latches of the request, `FB`, the response and `SEQ`
changes (R110, R112).
That the operand latches and the payload stay as the request loaded them after the operation's end is the model's choice
(log entry 21). -/
def Obligations.SetPixelWritesExactlyItsBit : Prop :=
  ∀ (s : State) (x y : Operand) (value : Bool), s.seq = .idle → Memory.wf s.fb = true → x.toNat < 128 → y.toNat < 64 →
    ∃ m, exec (.setPixel x y value) s =
        .next { s.latchOperands (encode (.setPixel x y value)) with
          fb := m, rsp := 0, responses := s.responses ++ [0], seq := .idle } ∧
      (Memory.read (byteOffset x y) m).getLsbD (bitPosition y) = value ∧
      (∀ i, i ≠ bitPosition y → (Memory.read (byteOffset x y) m).getLsbD i = (s.fbByte (byteOffset x y)).getLsbD i) ∧
      ∀ a, a ≠ byteOffset x y → Memory.read a m = s.fbByte a

/-- `SET_PIXEL` with `x ≥ 128` or `y ≥ 64` answers `OutOfBounds` carrying exactly that (x, y), and the buffer and everything
else is unchanged (R111, R203).
That the operand latches and the payload stay as the request loaded them after the operation's end is the model's choice
(log entry 21). -/
def Obligations.SetPixelOutOfBoundsCarriesThePair : Prop :=
  ∀ (s : State) (x y : Operand) (value : Bool), s.seq = .idle → 128 ≤ x.toNat ∨ 64 ≤ y.toNat →
    exec (.setPixel x y value) s =
      .next { s.latchOperands (encode (.setPixel x y value)) with
        rsp := responseWord 3 x y, responses := s.responses ++ [responseWord 3 x y], seq := .idle }

/-- Of two `SET_PIXEL` on the same pixel the later one wins, and with the same value the second changes no byte (R113). -/
def Obligations.LaterSetPixelWins : Prop :=
  ∀ (s t u r : State) (x y : Operand) (v w : Bool), s.seq = .idle → Memory.wf s.fb = true →
    exec (.setPixel x y v) s = .next t → exec (.setPixel x y w) t = .next u → exec (.setPixel x y w) s = .next r →
    u.fb = r.fb ∧ (v = w → u.fb = t.fb)

/-- Two `SET_PIXEL` on different pixels commute: the final `FB` is the same in either order (R113). -/
def Obligations.SetPixelsOnDifferentPixelsCommute : Prop :=
  ∀ (s t₁ u₁ t₂ u₂ : State) (x y x' y' : Operand) (v v' : Bool), s.seq = .idle → Memory.wf s.fb = true →
    (x ≠ x' ∨ y ≠ y') →
    exec (.setPixel x y v) s = .next t₁ → exec (.setPixel x' y' v') t₁ = .next u₁ →
    exec (.setPixel x' y' v') s = .next t₂ → exec (.setPixel x y v) t₂ = .next u₂ → u₁.fb = u₂.fb

/-- `CLEAR` completes with `OK` from any framebuffer: every byte reads 0 afterwards, and nothing but the latches of the
request, `FB`, the response and `SEQ` changes (R116).
That the operand latches and the payload stay as the request loaded them after the operation's end is the model's choice
(log entry 21). -/
def Obligations.ClearZeroesTheWholeBuffer : Prop :=
  ∀ s : State, s.seq = .idle → Memory.wf s.fb = true →
    ∃ m, exec .clear s =
        .next { s.latchOperands (encode .clear) with fb := m, rsp := 0, responses := s.responses ++ [0], seq := .idle } ∧
      ∀ a, Memory.read a m = 0

/-- Only `CLEAR` and `SET_PIXEL` write `FB`; a step of any other operation, begun or waiting, never does, whether it succeeds or
fails (R23). -/
def Obligations.OnlySetPixelAndClearWriteTheFramebuffer : Prop :=
  (∀ (i : Instr) (s t : State), i.op ≠ .setPixel → i.op ≠ .clear → exec i s = .next t → t.fb = s.fb) ∧
  (∀ s t : State, s.busy = true → step s = .next t → t.fb = s.fb) ∧
  ∀ (x y : Operand) (v : Bool) (s t : State), exec (.setPixel x y v) s = .next t → inBounds x y = false → t.fb = s.fb

/-! ### COMMAND and DATA -/

/-- `COMMAND`: one `DC` low drive, then one transfer of all the bytes, whatever they are; a failed drive ends it with
`PinError` and no transfer, a failed transfer with `BusError` and nothing delivered (R132, R135, R137; the spec's
assumption, log entry 18).
That the operand latches and the payload stay as the request loaded them after the operation's end is the model's choice
(log entry 21). -/
def Obligations.CommandSendsItsPayload : Prop :=
  ∀ (s : State) (bytes : List Byte) (rest : List Answer), s.seq = .idle → bytes.length ≤ 65535 →
    (s.answers = .ok :: .ok :: rest →
      exec (.command bytes) s =
        .next { s.latchOperands (encode (.command bytes)) with
          dc := .low, trace := s.trace ++ [.pin .dc .low .ok, .bus bytes .ok]
          rsp := 0, responses := s.responses ++ [0], seq := .idle, answers := rest
          sink := bytes.foldl (Sink.command s.params) s.sink }) ∧
    (s.answers = .fail :: rest →
      exec (.command bytes) s =
        .next { s.latchOperands (encode (.command bytes)) with
          dc := .unknown, trace := s.trace ++ [.pin .dc .low .fail]
          rsp := 2, responses := s.responses ++ [2], seq := .idle, answers := rest }) ∧
    (s.answers = .ok :: .fail :: rest →
      exec (.command bytes) s =
        .next { s.latchOperands (encode (.command bytes)) with
          dc := .low, trace := s.trace ++ [.pin .dc .low .ok, .bus bytes .fail]
          rsp := 1, responses := s.responses ++ [1], seq := .idle, answers := rest })

/-- `DATA`: one `DC` high drive, then one transfer of all the bytes; a failed drive ends it with `PinError` and no transfer, a
failed transfer with `BusError` and nothing delivered (R133, R136, R137; the spec's assumption, log entry 18).
That the operand latches and the payload stay as the request loaded them after the operation's end is the model's choice
(log entry 21). -/
def Obligations.DataSendsItsPayload : Prop :=
  ∀ (s : State) (bytes : List Byte) (rest : List Answer), s.seq = .idle → bytes.length ≤ 65535 →
    (s.answers = .ok :: .ok :: rest →
      exec (.data bytes) s =
        .next { s.latchOperands (encode (.data bytes)) with
          dc := .high, trace := s.trace ++ [.pin .dc .high .ok, .bus bytes .ok]
          rsp := 0, responses := s.responses ++ [0], seq := .idle, answers := rest
          sink := bytes.foldl (Sink.data s.params) s.sink }) ∧
    (s.answers = .fail :: rest →
      exec (.data bytes) s =
        .next { s.latchOperands (encode (.data bytes)) with
          dc := .unknown, trace := s.trace ++ [.pin .dc .high .fail]
          rsp := 2, responses := s.responses ++ [2], seq := .idle, answers := rest }) ∧
    (s.answers = .ok :: .fail :: rest →
      exec (.data bytes) s =
        .next { s.latchOperands (encode (.data bytes)) with
          dc := .high, trace := s.trace ++ [.pin .dc .high .ok, .bus bytes .fail]
          rsp := 1, responses := s.responses ++ [1], seq := .idle, answers := rest })

/-! ### RESET and BACKLIGHT -/

/-- `RESET`: the reset pin low, then high; success sets `LC` to `Reset` from any state, and a failure of either drive ends it
with `PinError` and `LC` `Uninitialized`; the second drive is not made when the first fails (R134, R192, R193). What the pulse
does to the sink is left free (log entry 8).
That the operand latches and the payload stay as the request loaded them after the operation's end is the model's choice
(log entry 21). -/
def Obligations.ResetPulsesTheResetPin : Prop :=
  ∀ (s : State) (rest : List Answer), s.seq = .idle →
    (s.answers = .ok :: .ok :: rest → ∃ σ n,
      exec .reset s =
        .next { s.latchOperands (encode .reset) with
          lc := .reset, rst := .high, trace := s.trace ++ [.pin .rst .low .ok, .pin .rst .high .ok]
          rsp := 0, responses := s.responses ++ [0], seq := .idle, answers := rest, sink := σ, free := n }) ∧
    (s.answers = .fail :: rest → ∃ σ n,
      exec .reset s =
        .next { s.latchOperands (encode .reset) with
          lc := .uninitialized, rst := .unknown, trace := s.trace ++ [.pin .rst .low .fail]
          rsp := 2, responses := s.responses ++ [2], seq := .idle, answers := rest, sink := σ, free := n }) ∧
    (s.answers = .ok :: .fail :: rest → ∃ σ n,
      exec .reset s =
        .next { s.latchOperands (encode .reset) with
          lc := .uninitialized, rst := .unknown, trace := s.trace ++ [.pin .rst .low .ok, .pin .rst .high .fail]
          rsp := 2, responses := s.responses ++ [2], seq := .idle, answers := rest, sink := σ, free := n })

/-- `BACKLIGHT` drives the backlight pin high for on and low for off; a failed drive ends it with `PinError` and the latch
`Unknown`; no other state is affected (R190).
That the operand latches and the payload stay as the request loaded them after the operation's end is the model's choice
(log entry 21). -/
def Obligations.BacklightDrivesItsPin : Prop :=
  ∀ (s : State) (on : Bool) (rest : List Answer), s.seq = .idle →
    (s.answers = .ok :: rest →
      exec (.backlight on) s =
        .next { s.latchOperands (encode (.backlight on)) with
          bl := (if on then .high else .low), trace := s.trace ++ [.pin .bl (if on then .high else .low) .ok]
          rsp := 0, responses := s.responses ++ [0], seq := .idle, answers := rest }) ∧
    (s.answers = .fail :: rest →
      exec (.backlight on) s =
        .next { s.latchOperands (encode (.backlight on)) with
          bl := .unknown, trace := s.trace ++ [.pin .bl (if on then .high else .low) .fail]
          rsp := 2, responses := s.responses ++ [2], seq := .idle, answers := rest })

/-! ### INIT -/

/-- `INIT` with every event answered `ok` emits the reset pulse and the ten bytes, each as a one-byte command transfer after
its own `DC` low drive, 22 events in all, and ends `OK` in `Displaying`; nothing else of the block changes (R150, R154, R156,
R159). What the pulse does to the sink is left free (log entry 8).
That the operand latches and the payload stay as the request loaded them after the operation's end is the model's choice
(log entry 21). -/
def Obligations.InitSendsTheTenBytesAndDisplays : Prop :=
  ∀ (s : State) (rest : List Answer), s.seq = .idle → s.answers = List.replicate 22 .ok ++ rest → ∃ σ n,
    exec .init s =
      .next { s.latchOperands (encode .init) with
        lc := .displaying, rst := .high, dc := .low
        trace := s.trace ++ ([.pin .rst .low .ok, .pin .rst .high .ok] ++
          ([biasCmd s.params s.bias, segCmd s.orient, comCmd s.orient, s.params.dispNormal, s.params.startLineBase,
            s.params.powerCtrl, s.params.regRatioBase ||| s.params.regRatioOffset, s.params.dispOn, s.params.setContrast,
            s.params.contrastValue].flatMap fun b => [.pin .dc .low .ok, .bus [b] .ok]))
        rsp := 0, responses := s.responses ++ [0], seq := .idle, answers := rest, sink := σ, free := n }

/-- A `fail` at event `k` of `INIT` ends it there: `PinError` for a drive and `BusError` for a transfer; the events before it
stand and none follows; `LC` is `Uninitialized` when the pulse failed, `Reset` at or before the transfer of byte 6, and
`Configured` after it (R155, R156).
That the operand latches and the payload stay as the request loaded them after the operation's end is the model's choice
(log entry 21). -/
def Obligations.InitStopsAtItsFirstFailure : Prop :=
  ∀ (s : State) (k : Nat) (rest : List Answer), s.seq = .idle → k < 22 →
    s.answers = List.replicate k .ok ++ .fail :: rest → ∃ σ n,
    exec .init s =
      .next { s.latchOperands (encode .init) with
        lc := (if k < 2 then .uninitialized else if k ≤ 15 then .reset else .configured)
        rst := (if k < 2 then .unknown else .high)
        dc := (if k < 2 then s.dc else if k % 2 = 0 then .unknown else .low)
        trace := s.trace ++ s.okEvents .init k ++ [(initStep s k).event .fail]
        rsp := (if k < 2 ∨ k % 2 = 0 then 2 else 1)
        responses := s.responses ++ [if k < 2 ∨ k % 2 = 0 then 2 else 1]
        seq := .idle, answers := rest, sink := σ, free := n }

/-- After an `INIT` that ended, `LC = Displaying` if and only if the status is `OK`, whatever `LC` was before (R156). -/
def Obligations.DisplayingExactlyWhenInitAnswersOk : Prop :=
  ∀ s t : State, exec .init s = .next t → t.seq = .idle → (t.lc = .displaying ↔ rspStatus t.rsp = Status.ok.code)

/-- The steps of `INIT` and of `SHOW` by their numbers, 22 and 68 of them (R154, R174, R246). -/
def Obligations.SequencerStepNumbers : Prop :=
  ∀ s : State,
    (s.script .init).length = 22 ∧ (∀ n < 22, (s.script .init)[n]?.map Line.port = some (initStep s n)) ∧
    (s.script .showFb).length = 68 ∧ (∀ n < 68, (s.script .showFb)[n]?.map Line.port = some (showStep s n))

/-! ### SHOW -/

/-- `SHOW` with every event answered `ok` emits the enter command, for each page in the order 0 to 7 its three address
commands and its 128-byte slice, and the exit command, and ends `OK`; `FB`, `LC`, `RST`, `BL`, the straps and everything else
of the block is unchanged (R170 to R174).
That the operand latches and the payload stay as the request loaded them after the operation's end is the model's choice
(log entry 21). -/
def Obligations.ShowSendsEightPages : Prop :=
  ∀ (s : State) (rest : List Answer), s.seq = .idle → s.answers = List.replicate 68 .ok ++ rest → ∃ σ,
    exec .showFb s =
      .next { s.latchOperands (encode .showFb) with
        dc := .low
        trace := s.trace ++ ([.pin .dc .low .ok, .bus [s.params.rmwEnter] .ok] ++
          ([0, 1, 2, 3, 4, 5, 6, 7].flatMap fun p =>
            [.pin .dc .low .ok, .bus [pageCmd s.params p] .ok, .pin .dc .low .ok, .bus [colLowCmd s.params s.orient] .ok,
             .pin .dc .low .ok, .bus [s.params.colHigh] .ok,
             .pin .dc .high .ok, .bus ((List.range 128).map fun c => s.fbByte (128 * p + c)) .ok]) ++
          [.pin .dc .low .ok, .bus [s.params.rmwExit] .ok])
        rsp := 0, responses := s.responses ++ [0], seq := .idle, answers := rest, sink := σ }

/-- A `fail` at event `k` of `SHOW` ends it there, `PinError` for a drive and `BusError` for a transfer; the events before it
stand and none follows; `FB` and everything else of the block is unchanged (R176).
That the operand latches and the payload stay as the request loaded them after the operation's end is the model's choice
(log entry 21). -/
def Obligations.ShowStopsAtItsFirstFailure : Prop :=
  ∀ (s : State) (k : Nat) (rest : List Answer), s.seq = .idle → k < 68 →
    s.answers = List.replicate k .ok ++ .fail :: rest → ∃ σ,
    exec .showFb s =
      .next { s.latchOperands (encode .showFb) with
        dc := (if k % 2 = 0 then .unknown else if 2 ≤ k ∧ k < 66 ∧ (k - 2) % 8 = 7 then .high else .low)
        trace := s.trace ++ s.okEvents .showFb k ++ [(showStep s k).event .fail]
        rsp := (if k % 2 = 0 then 2 else 1)
        responses := s.responses ++ [if k % 2 = 0 then 2 else 1]
        seq := .idle, answers := rest, sink := σ }

/-- The byte stream of a successful `SHOW`: 1024 data bytes, which are `FB[0 .. 1023]` in order, and 26 command bytes, the first
the enter command and the last the exit command (R55, R174, R175, R246). -/
def Obligations.ShowStreamsTheFramebufferInOrder : Prop :=
  ∀ (s t : State) (es : List Event), exec .showFb s = .next t → t.seq = .idle → rspStatus t.rsp = Status.ok.code →
    t.trace = s.trace ++ es →
    ((taggedStream s.dc es).filter fun b => b.1 = .high).map Prod.snd = Memory.readBytes 0 1024 s.fb ∧
    ((taggedStream s.dc es).filter fun b => b.1 = .low).length = 26 ∧
    (taggedStream s.dc es).length = 1050 ∧
    (taggedStream s.dc es).head? = some (.low, s.params.rmwEnter) ∧
    (taggedStream s.dc es).getLast? = some (.low, s.params.rmwExit)

/-- The mirror property over the sink model (R67): when `SHOW` ends `OK`, from any sink of the right size, the display RAM
holds `FB`, shifted by four columns in reverse orientation, and every cell outside those columns keeps its contents. The premise `Readable` is the model's reading of what R66 needs
of the command bytes (log entry 7), and 132 columns is R66's own condition. -/
def Obligations.ShowMirrorsTheFramebuffer : Prop :=
  ∀ (s t : State), s.params.Legal → s.params.Readable → 132 ≤ s.params.sinkCols → s.sink.sized s.params.sinkCols = true →
    exec .showFb s = .next t → t.seq = .idle → rspStatus t.rsp = Status.ok.code →
    (∀ p < 8, ∀ c < 128, t.sink.cell p (c + if s.orient = .normal then 0 else 4) = some (s.fbByte (128 * p + c))) ∧
    ∀ p c, (if s.orient = .normal then 128 ≤ c else c < 4 ∨ 132 ≤ c) → t.sink.cell p c = s.sink.cell p c

/-- The torn frame over the sink model (R176, U4): when event `k` of `SHOW` fails, the pages before the failing one hold `FB` and
the failing page and those after it keep their old contents. The premises are those of the mirror property; that a
failed transfer delivers nothing is the assumption the spec adopts (U7, log entry 18). -/
def Obligations.FailedShowLeavesATornFrame : Prop :=
  ∀ (s t : State) (k : Nat) (rest : List Answer), s.params.Legal → s.params.Readable → 132 ≤ s.params.sinkCols →
    s.sink.sized s.params.sinkCols = true → k < 68 → s.answers = List.replicate k .ok ++ .fail :: rest →
    exec .showFb s = .next t →
    (∀ p < (if k < 2 then 0 else if 66 ≤ k then 8 else (k - 2) / 8), ∀ c < 128,
      t.sink.cell p (c + if s.orient = .normal then 0 else 4) = some (s.fbByte (128 * p + c))) ∧
    ∀ p, (if k < 2 then 0 else if 66 ≤ k then 8 else (k - 2) / 8) ≤ p → ∀ c, t.sink.cell p c = s.sink.cell p c

/-- A data byte reaches the sink at its page and column pointers when the column exists, every other cell of the display RAM is
unchanged, and the column pointer advances (R66); what it holds after column 255 is left open (log entry 17). -/
def Obligations.SinkStoresDataAtItsPointers : Prop :=
  ∀ (c : Params) (σ : Sink) (b : Byte), σ.sized c.sinkCols = true →
    (∀ p k, (Sink.data c σ b).cell p k =
      if p = σ.sp.toNat ∧ k = σ.sc.toNat ∧ k < c.sinkCols then some b else σ.cell p k) ∧
    (Sink.data c σ b).sp = σ.sp ∧ (σ.sc ≠ 255 → (Sink.data c σ b).sc.toNat = σ.sc.toNat + 1)

/-! ### The sequencer and the environment -/

/-- In every operation with port events the first event answered `fail` is its last: the events before it stand, the error of
its kind is answered, the sequencer is idle, and `FB`, the straps, the parameters and the requests are as they were; each
latch holds the last level driven, `Unknown` after a failed drive (R28, R139, R206, R207).
That the operand latches and the payload stay as the request loaded them after the operation's end is the model's choice
(log entry 21). -/
def Obligations.FirstFailureEndsTheOperation : Prop :=
  ∀ (i : Instr) (s : State) (k : Nat) (rest : List Answer), s.seq = .idle → i.wf = true → k < i.op.events →
    s.answers = List.replicate k .ok ++ .fail :: rest →
    let l := s.latchOperands (encode i)
    let es := l.okEvents i.op k ++ [(l.portStep i.op k).event .fail]
    ∃ σ n, exec i s =
      .next { l with
        lc := lifecycleAfter i.op k true s.lc
        dc := latchOf .dc s.dc es, rst := latchOf .rst s.rst es, bl := latchOf .bl s.bl es
        trace := s.trace ++ es
        rsp := (l.portStep i.op k).error.word 0 0
        responses := s.responses ++ [(l.portStep i.op k).error.word 0 0]
        seq := .idle, answers := rest, sink := σ, free := n }

/-- Where the environment has answered only the first `k` events of an operation, all `ok`, the operation is busy at step `k`: no
response word, `SEQ` holding the operation, the step and, for `SHOW`, the page (R32, R213). -/
def Obligations.UnansweredEventKeepsTheOperationBusy : Prop :=
  ∀ (i : Instr) (s : State) (k : Nat), s.seq = .idle → i.wf = true → k < i.op.events →
    s.answers = List.replicate k .ok →
    let l := s.latchOperands (encode i)
    ∃ σ n page, exec i s =
      .next { l with
        lc := lifecycleAfter i.op k false s.lc
        dc := latchOf .dc s.dc (l.okEvents i.op k), rst := latchOf .rst s.rst (l.okEvents i.op k)
        bl := latchOf .bl s.bl (l.okEvents i.op k)
        trace := s.trace ++ l.okEvents i.op k
        seq := .busy i.op k page, answers := [], sink := σ, free := n } ∧
      (i.op = .showFb → ∀ p < 8, 2 + 8 * p ≤ k → k < 10 + 8 * p → page.val = p) ∧ (i.op ≠ .showFb → page = 0)

/-- While the awaited event is unanswered nothing changes: `SEQ` stays, no response is produced and no further request is
accepted (R213). That a waiting block takes a step, to the same state, is the model's choice between the two forms of a hang
R213 allows (log entry 11), and that the sink stays with the rest is its choice too (log entry 28). -/
def Obligations.WaitingBlockStaysAsItIs : Prop :=
  ∀ (s : State), s.seqOk → s.Waits → step s = .next s ∧ ¬ s.Final ∧ ∀ i, exec i s = .refused .requestWhileBusy

/-- When the answers come makes no difference: an operation begun with the answers `as` that waits, and taken up with the
answers `bs`, ends as the operation begun with `as ++ bs` (R32, R61). It supports the model's choice of one step for a whole operation
(log entry 10). -/
def Obligations.LaterAnswersResumeTheOperation : Prop :=
  ∀ (i : Instr) (s t : State) (as bs : List Answer), exec i { s with answers := as } = .next t → t.busy = true →
    step { t with answers := bs } = exec i { s with answers := as ++ bs }

/-- One operation is the sequencer of R32 moved event by event: from `Busy(op, 0, 0)`, `step` advances by one after each event
answered `ok`, and `SEQ` returns to `Idle` after the last or at the first `fail` (R32). It supports the
model's choice of one step for a whole operation (log entry 10). -/
def Obligations.OperationIsTheSequencerEventByEvent : Prop :=
  ∀ (i : Instr) (s t : State), 0 < i.op.events → exec i s = .next t →
    t = State.sequencerSteps 68 { s.latchOperands (encode i) with seq := .busy i.op 0 0 }

/-- Every accepted request produces exactly one response word, when its operation ends, and none before (R84, R248). -/
def Obligations.OneResponsePerRequest : Prop :=
  ∀ (i : Instr) (s t : State), exec i s = .next t →
    (t.seq = .idle ∧ t.responses = s.responses ++ [t.rsp]) ∨
    (t.busy = true ∧ t.responses = s.responses ∧ t.rsp = s.rsp ∧ t.answers = [])

/-- The complete list of results, who ends with each and what the response word records (R200): `OK` exactly when the operation
ran to its end, every event of it answered `ok`, and no pixel was off the screen; `BusError` exactly when the last event is a
failed transfer, `PinError` exactly when it is a failed drive, `OutOfBounds`, with the instruction's own x and y, exactly for a
`SET_PIXEL` off the screen; the operations and the pins of each are those of R200's table. -/
def Obligations.StatusOfEveryOperation : Prop :=
  ∀ (i : Instr) (s t : State), exec i s = .next t → t.seq = .idle →
    ∃ (st : Status) (es : List Event), t.trace = s.trace ++ es ∧
      (st ≠ .outOfBounds → t.rsp = responseWord st.code 0 0) ∧
      (∀ x y v, i = .setPixel x y v → t.rsp = st.word x y) ∧
      (st = .ok → es.length = i.op.events ∧ ∀ e ∈ es, e.answer = .ok) ∧
      (st = .busError ↔ ∃ bytes, es.getLast? = some (.bus bytes .fail)) ∧
      (st = .pinError ↔ ∃ p l, es.getLast? = some (.pin p l .fail)) ∧
      (st = .outOfBounds ↔ ∃ x y v, i = .setPixel x y v ∧ (128 ≤ x.toNat ∨ 64 ≤ y.toNat)) ∧
      (∀ e ∈ es.dropLast, e.answer = .ok) ∧
      (st = .busError → i.op = .init ∨ i.op = .command ∨ i.op = .data ∨ i.op = .showFb) ∧
      (st = .pinError → ∃ p l, es.getLast? = some (.pin p l .fail) ∧
        (p = .rst ∧ (i.op = .init ∨ i.op = .reset) ∨ p = .bl ∧ i.op = .backlight ∨
          p = .dc ∧ (i.op = .init ∨ i.op = .command ∨ i.op = .data ∨ i.op = .showFb))) ∧
      (st = .outOfBounds → i.op = .setPixel)

/-- No operation reads `LC`: with any other value of it the run is the same but for `LC` itself (R26). -/
def Obligations.LifecycleGatesNothing : Prop :=
  ∀ (i : Instr) (s t : State) (l : Lifecycle), exec i s = .next t → ∃ l', exec i { s with lc := l } = .next { t with lc := l' }

/-- `LC` is written only by `INIT` and `RESET`; every other operation, begun or taken up again, leaves it unchanged whether it succeeds or fails (R27). -/
def Obligations.OnlyInitAndResetWriteTheLifecycle : Prop :=
  (∀ (i : Instr) (s t : State), i.op ≠ .init → i.op ≠ .reset → exec i s = .next t → t.lc = s.lc) ∧
  ∀ (s t : State) (op : Op) (n : Nat) (p : Fin 8), s.seq = .busy op n p → op ≠ .init → op ≠ .reset → step s = .next t →
    t.lc = s.lc

/-- The backlight pin is touched by `BACKLIGHT` alone, and the reset pin by `INIT` and `RESET` alone, whether an operation is
begun or taken up again (R191, R192; of the others R110, R116, R135, R136, R170 and R190 say what they write). -/
def Obligations.PinsHaveTheirOwnOperations : Prop :=
  (∀ (i : Instr) (s t : State), exec i s = .next t →
    (i.op ≠ .backlight → t.bl = s.bl) ∧ (i.op ≠ .init → i.op ≠ .reset → t.rst = s.rst)) ∧
  ∀ (s t : State) (op : Op) (n : Nat) (p : Fin 8), s.seq = .busy op n p → step s = .next t →
    (op ≠ .backlight → t.bl = s.bl) ∧ (op ≠ .init → op ≠ .reset → t.rst = s.rst)

/-- On acceptance of a request the four latches hold the fields of its word, `OPX` and `OPLEN` the same one, and stay so to the
end of the step (R31, R82); that they stay so after the operation's end is the model's choice (log entry 21). -/
def Obligations.AcceptanceLoadsTheLatches : Prop :=
  ∀ (i : Instr) (s t : State), exec i s = .next t →
    t.opv = fieldV (encode i).word ∧ t.opx = fieldA (encode i).word ∧ t.oplen = fieldA (encode i).word ∧
    t.opy = fieldB (encode i).word ∧ t.payload = (encode i).pay ∧
    (∀ x y v, i = .setPixel x y v → t.opx = x ∧ t.opy = y ∧ t.opv = v) ∧
    (∀ on, i = .backlight on → t.opv = on) ∧
    (∀ bytes, i = .command bytes ∨ i = .data bytes → t.oplen.toNat = bytes.length ∧ t.payload = bytes)

/-! ### The whole machine -/

/-- When the block is idle and the host's next request decodes to `i`, a step is `exec i` with the request taken from the list
(R30, R32). -/
def Obligations.StepRunsTheDecodedRequest : Prop :=
  ∀ (s : State) (r : Request) (rs : List Request) (i : Instr), s.seq = .idle → s.reqs = r :: rs → decode r = .ok i →
    step s = exec i { s with reqs := rs }

/-- A request that spells no operation has no move, and neither has a `COMMAND` or `DATA` whose payload is not fully supplied: the
model refuses each by name (R86). That it refuses surplus payload bytes the same way, those of a payload on the six operations
that take none among them, is the model's choice (log entry 14, DEDUCED). -/
def Obligations.RequestThatSpellsNothingIsRefused : Prop :=
  ∀ (s : State) (r : Request) (rs : List Request), s.seq = .idle → s.reqs = r :: rs →
    ((∀ p : Op, p.spelledBy r.word = false) → step s = .refused (.invalidRequest r.word)) ∧
    ((∃ p : Op, p.spelledBy r.word = true) → r.pay.length ≠ payloadBytes r.word → step s = .refused .payloadLength)

/-- A request is accepted only when the block is idle; presented while it is busy it has no move (R30, R86, R219, R234). -/
def Obligations.RequestWhileBusyIsRefused : Prop :=
  ∀ (s : State), s.busy = true →
    (∀ i, exec i s = .refused .requestWhileBusy) ∧ ∀ r, s.present r = .error .requestWhileBusy

/-- Nothing happens in the block except in response to a request (R204). That a final state takes a step, to itself, is the
model's choice (log entry 11). -/
def Obligations.IdleBlockWithoutRequestStays : Prop :=
  ∀ s : State, s.Final → step s = .next s

/-- The straps, and the parameters, are constant for the life of the block: no step changes them (R24, R25, R35, R242). -/
def Obligations.StrapsAndParametersAreForLife : Prop :=
  ∀ s t : State, step s = .next t → t.orient = s.orient ∧ t.bias = s.bias ∧ t.params = s.params

/-- `TRACE` only grows, and by at most the events of one operation (R33, R61, R246). -/
def Obligations.TraceOnlyGrows : Prop :=
  ∀ s t : State, step s = .next t → ∃ es, t.trace = s.trace ++ es ∧ es.length ≤ 68

/-- The invariant holds at `State.reset` and in every power-on state whose parameters are legal and whose framebuffer and sink are
well formed. That `OPX` equals `OPLEN` there rests on the zeros the model chose for the latches R38 leaves unspecified (log
entry 4, DESIGN CHOICE, unsafe), and what `State.reset` holds beyond R38 is the model's choice (log entries 1 to 6). -/
def Obligations.InvariantHoldsAtPowerOn : Prop :=
  State.reset.Inv ∧
  ∀ (c : Params) (o : Orientation) (b : Bias) (m : List Host.Cell) (σ : Sink) (rs : List Request) (as : List Answer),
    c.Legal → Memory.wf m = true → σ.sized c.sinkCols = true → (State.powerOn c o b m σ rs as).Inv

/-- Every step keeps the invariant: the framebuffer's canonical form, a sequencer position the operation has, every transfer
framed by its `DC` drive, the response port holding the last response, and the sink's size (R22, R32, R84, R138). Two of its
clauses the log settles: the page counter at `SHOW`'s steps 66 and 67 (`validPosition`, log entry 9, DEDUCED, unsafe) and `OPX`
equal to `OPLEN` after an operation's end (log entry 21, the model's choice). -/
def Obligations.EveryStepKeepsTheInvariant : Prop :=
  ∀ s t : State, s.Inv → step s = .next t → t.Inv

/-- From a state of the invariant no step faults: the block has no error but its three results (R200, R247). -/
def Obligations.NoStepFaults : Prop :=
  ∀ s : State, s.Inv → ∀ f, step s ≠ .fault f

/-- The drawing sink (R95, D22): with `skip` every pair is applied in order, each answered with `OK` or with its own
`OutOfBounds`; with `stop` the pairs up to and including the first one off the screen are applied, the same way, and no
more. -/
def Obligations.DrawFollowsItsPolicy : Prop :=
  ∀ (s : State) (ps : List (Operand × Operand × Bool)), s.seq = .idle →
    (∃ t, State.draw .skip ps s = .next t ∧ t.seq = .idle ∧
      t.responses = s.responses ++ ps.map (fun p => if inBounds p.1 p.2.1 then 0 else responseWord 3 p.1 p.2.1) ∧
      t.fb = ps.foldl (fun m p =>
        if inBounds p.1 p.2.1 then
          Memory.write (byteOffset p.1 p.2.1) (withBit (Memory.read (byteOffset p.1 p.2.1) m) (bitPosition p.2.1) p.2.2) m
        else m) s.fb) ∧
    State.draw .stop ps s =
      State.draw .skip (ps.take ((ps.takeWhile fun p => inBounds p.1 p.2.1).length + 1)) s

/-! ### The sink's command side -/

/-- One command byte in the sink model (R66). The byte that follows the contrast command leaves the display RAM and the pointers
as they were. Any other leaves the display RAM; it sets the page pointer to `p` when it is `CMD_PAGE_BASE | p`, the low nibble of
the column to `n` when it is `CMD_COL_LOW_BASE + n`, a sum of natural numbers, and the high nibble to `n` when it is
`CMD_COL_HIGH | n`; each of the three keeps what it held when the byte fits none of its values; and the contrast command alone
starts a wait. That a byte which fits two patterns does what both say, and the premise on the low nibble of `CMD_COL_HIGH`, are
the model's reading (log entry 7); that the argument ends the wait and starts none is log entry 15, and the mode bit is log
entry 16. -/
def Obligations.CommandByteMovesTheSinkPointers : Prop :=
  ∀ (c : Params) (σ : Sink) (b : Byte),
    (σ.awaitsArg = true → Sink.command c σ b = { σ with awaitsArg := false }) ∧
    (σ.awaitsArg = false →
      (Sink.command c σ b).ddram = σ.ddram ∧ ((Sink.command c σ b).awaitsArg = true ↔ b = c.setContrast) ∧
      (c.Legal → ∀ p < 8, b = c.pageBase ||| BitVec.ofNat 8 p → (Sink.command c σ b).sp.toNat = p) ∧
      ((∀ p < 8, b ≠ c.pageBase ||| BitVec.ofNat 8 p) → (Sink.command c σ b).sp = σ.sp) ∧
      (∀ n < 16, b.toNat = c.colLowBase.toNat + n → ((Sink.command c σ b).sc.extractLsb' 0 4).toNat = n) ∧
      ((∀ n < 16, b.toNat ≠ c.colLowBase.toNat + n) →
        (Sink.command c σ b).sc.extractLsb' 0 4 = σ.sc.extractLsb' 0 4) ∧
      (c.colHigh &&& 0x0F = 0 → ∀ n < 16, b = c.colHigh ||| BitVec.ofNat 8 n →
        ((Sink.command c σ b).sc.extractLsb' 4 4).toNat = n) ∧
      ((∀ n < 16, b ≠ c.colHigh ||| BitVec.ofNat 8 n) →
        (Sink.command c σ b).sc.extractLsb' 4 4 = σ.sc.extractLsb' 4 4) ∧
      (b = c.rmwEnter → (Sink.command c σ b).rmw = true) ∧
      (b = c.rmwExit → b ≠ c.rmwEnter → (Sink.command c σ b).rmw = false) ∧
      (b ≠ c.rmwEnter → b ≠ c.rmwExit → (Sink.command c σ b).rmw = σ.rmw))

/-- What `SHOW` leaves of the controller's read-modify-write mode (R171, R177): after an `OK` it was left; after a failure at event
0 or 1 it is as it was; after a later failure it was entered and not left. The bit is the model's (log entry 16), as are the
premises: enter and exit bytes that differ, an exit byte that is none of the address bytes (log entry 7), and for a failed
`SHOW` an enter byte that is no contrast argument (log entry 15). -/
def Obligations.ShowBracketsTheReadModifyWriteMode : Prop :=
  ∀ s t : State, exec .showFb s = .next t →
    (t.seq = .idle → rspStatus t.rsp = Status.ok.code → s.params.rmwEnter ≠ s.params.rmwExit → t.sink.rmw = false) ∧
    ∀ (k : Nat) (rest : List Answer), k < 68 → s.answers = List.replicate k .ok ++ .fail :: rest →
      (k < 2 → t.sink.rmw = s.sink.rmw) ∧
      (2 ≤ k → s.sink.awaitsArg = false → (∀ p < 8, s.params.rmwExit ≠ pageCmd s.params p) →
        s.params.rmwExit ≠ colLowCmd s.params s.orient → s.params.rmwExit ≠ colHighCmd s.params → t.sink.rmw = true)

/-- Which byte is the contrast command's argument depends on the tagged byte stream alone (R33, R66): in every operation, begun
or taken up again, no drive of a pin, the reset pulse among them, and no failed transfer starts or ends the wait for it. What a
data byte in between does is the model's reading (log entry 15). -/
def Obligations.ContrastArgumentFollowsTheByteStream : Prop :=
  (∀ (i : Instr) (s t : State) (es : List Event), exec i s = .next t → t.trace = s.trace ++ es →
    t.sink.awaitsArg = contrastWait s.params s.sink.awaitsArg (taggedStream s.dc es)) ∧
  ∀ (s t : State) (es : List Event), s.Inv → s.busy = true → step s = .next t → t.trace = s.trace ++ es →
    t.sink.awaitsArg = contrastWait s.params s.sink.awaitsArg (taggedStream s.dc es)
end

