-- ==== Sys2Proof/Laws/Decode.lean ====
section
/-! SUPPORT. The fields of a request word are the ones it was made of, and the two payload length tests say what they are
for. -/

namespace Sys2Proof

/-- Bit `i` of a request word (R80). -/
theorem getLsbD_requestWord (op : BitVec 3) (v : Bool) (a b : Operand) (i : Nat) :
    (requestWord op v a b).getLsbD i =
      if i < 3 then op.getLsbD i else if i < 4 then v else if i < 20 then a.getLsbD (i - 4) else b.getLsbD (i - 20) := by
  refine (BitVec.getLsbD_append (x := b ++ a ++ BitVec.ofBool v) (y := op) (i := i)).trans ?_
  by_cases h3 : i < 3
  · rw [if_pos h3, if_pos h3]
  · rw [if_neg h3, if_neg h3, BitVec.getLsbD_append]
    by_cases h4 : i < 4
    · simp [h4, show i - 3 = 0 by omega]
    · rw [if_neg (by omega), if_neg h4, BitVec.getLsbD_append, show i - 3 - 1 = i - 4 by omega]
      by_cases h20 : i < 20
      · rw [if_pos (by omega), if_pos h20]
      · rw [if_neg (by omega), if_neg h20, show i - 4 - 16 = i - 20 by omega]

@[simp] theorem fieldOp_requestWord (op : BitVec 3) (v : Bool) (a b : Operand) : fieldOp (requestWord op v a b) = op := by
  apply BitVec.eq_of_getLsbD_eq
  intro i hi
  simp [fieldOp, getLsbD_requestWord, hi]

@[simp] theorem fieldV_requestWord (op : BitVec 3) (v : Bool) (a b : Operand) : fieldV (requestWord op v a b) = v := by
  simp only [fieldV, getLsbD_requestWord]
  rfl

@[simp] theorem fieldA_requestWord (op : BitVec 3) (v : Bool) (a b : Operand) : fieldA (requestWord op v a b) = a := by
  apply BitVec.eq_of_getLsbD_eq
  intro i hi
  rw [fieldA, BitVec.getLsbD_extractLsb', getLsbD_requestWord, if_neg (by omega), if_neg (by omega), if_pos (by omega),
    show 4 + i - 4 = i by omega]
  simp [hi]

@[simp] theorem fieldB_requestWord (op : BitVec 3) (v : Bool) (a b : Operand) : fieldB (requestWord op v a b) = b := by
  apply BitVec.eq_of_getLsbD_eq
  intro i hi
  rw [fieldB, BitVec.getLsbD_extractLsb', getLsbD_requestWord, if_neg (by omega), if_neg (by omega), if_neg (by omega),
    show 20 + i - 20 = i by omega]
  simp [hi]

theorem exactly_iff (bs : List Byte) (n : Nat) : exactly bs n = true ↔ bs.length = n := by
  induction bs generalizing n with
  | nil => cases n <;> simp [exactly]
  | cons b bs ih => cases n <;> simp [exactly, ih]

theorem atMost_iff (bs : List Byte) (n : Nat) : atMost bs n = true ↔ bs.length ≤ n := by
  induction bs generalizing n with
  | nil => simp [atMost]
  | cons b bs ih => cases n <;> simp [atMost, ih]

end Sys2Proof
end

