-- ==== Sys2Proof/Laws/State.lean ====
section
/-! SUPPORT. One lemma per field for each named update of the state, so that no later proof unfolds a record update. -/

namespace Sys2Proof.Machine


/-! ### latchOperands -/

@[simp] theorem State.latchOperands_fb (r : Request) (s : State) : (s.latchOperands r).fb = s.fb := rfl
@[simp] theorem State.latchOperands_orient (r : Request) (s : State) : (s.latchOperands r).orient = s.orient := rfl
@[simp] theorem State.latchOperands_bias (r : Request) (s : State) : (s.latchOperands r).bias = s.bias := rfl
@[simp] theorem State.latchOperands_lc (r : Request) (s : State) : (s.latchOperands r).lc = s.lc := rfl
@[simp] theorem State.latchOperands_dc (r : Request) (s : State) : (s.latchOperands r).dc = s.dc := rfl
@[simp] theorem State.latchOperands_rst (r : Request) (s : State) : (s.latchOperands r).rst = s.rst := rfl
@[simp] theorem State.latchOperands_bl (r : Request) (s : State) : (s.latchOperands r).bl = s.bl := rfl
@[simp] theorem State.latchOperands_opx (r : Request) (s : State) : (s.latchOperands r).opx = fieldA r.word := rfl
@[simp] theorem State.latchOperands_opy (r : Request) (s : State) : (s.latchOperands r).opy = fieldB r.word := rfl
@[simp] theorem State.latchOperands_opv (r : Request) (s : State) : (s.latchOperands r).opv = fieldV r.word := rfl
@[simp] theorem State.latchOperands_oplen (r : Request) (s : State) : (s.latchOperands r).oplen = fieldA r.word := rfl
@[simp] theorem State.latchOperands_payload (r : Request) (s : State) : (s.latchOperands r).payload = r.pay := rfl
@[simp] theorem State.latchOperands_seq (r : Request) (s : State) : (s.latchOperands r).seq = s.seq := rfl
@[simp] theorem State.latchOperands_trace (r : Request) (s : State) : (s.latchOperands r).trace = s.trace := rfl
@[simp] theorem State.latchOperands_rsp (r : Request) (s : State) : (s.latchOperands r).rsp = s.rsp := rfl
@[simp] theorem State.latchOperands_responses (r : Request) (s : State) : (s.latchOperands r).responses = s.responses := rfl
@[simp] theorem State.latchOperands_reqs (r : Request) (s : State) : (s.latchOperands r).reqs = s.reqs := rfl
@[simp] theorem State.latchOperands_answers (r : Request) (s : State) : (s.latchOperands r).answers = s.answers := rfl
@[simp] theorem State.latchOperands_params (r : Request) (s : State) : (s.latchOperands r).params = s.params := rfl
@[simp] theorem State.latchOperands_sink (r : Request) (s : State) : (s.latchOperands r).sink = s.sink := rfl
@[simp] theorem State.latchOperands_free (r : Request) (s : State) : (s.latchOperands r).free = s.free := rfl

/-! ### storeFb -/

@[simp] theorem State.storeFb_fb (m : List Host.Cell) (s : State) : (s.storeFb m).fb = m := rfl
@[simp] theorem State.storeFb_orient (m : List Host.Cell) (s : State) : (s.storeFb m).orient = s.orient := rfl
@[simp] theorem State.storeFb_bias (m : List Host.Cell) (s : State) : (s.storeFb m).bias = s.bias := rfl
@[simp] theorem State.storeFb_lc (m : List Host.Cell) (s : State) : (s.storeFb m).lc = s.lc := rfl
@[simp] theorem State.storeFb_dc (m : List Host.Cell) (s : State) : (s.storeFb m).dc = s.dc := rfl
@[simp] theorem State.storeFb_rst (m : List Host.Cell) (s : State) : (s.storeFb m).rst = s.rst := rfl
@[simp] theorem State.storeFb_bl (m : List Host.Cell) (s : State) : (s.storeFb m).bl = s.bl := rfl
@[simp] theorem State.storeFb_opx (m : List Host.Cell) (s : State) : (s.storeFb m).opx = s.opx := rfl
@[simp] theorem State.storeFb_opy (m : List Host.Cell) (s : State) : (s.storeFb m).opy = s.opy := rfl
@[simp] theorem State.storeFb_opv (m : List Host.Cell) (s : State) : (s.storeFb m).opv = s.opv := rfl
@[simp] theorem State.storeFb_oplen (m : List Host.Cell) (s : State) : (s.storeFb m).oplen = s.oplen := rfl
@[simp] theorem State.storeFb_payload (m : List Host.Cell) (s : State) : (s.storeFb m).payload = s.payload := rfl
@[simp] theorem State.storeFb_seq (m : List Host.Cell) (s : State) : (s.storeFb m).seq = s.seq := rfl
@[simp] theorem State.storeFb_trace (m : List Host.Cell) (s : State) : (s.storeFb m).trace = s.trace := rfl
@[simp] theorem State.storeFb_rsp (m : List Host.Cell) (s : State) : (s.storeFb m).rsp = s.rsp := rfl
@[simp] theorem State.storeFb_responses (m : List Host.Cell) (s : State) : (s.storeFb m).responses = s.responses := rfl
@[simp] theorem State.storeFb_reqs (m : List Host.Cell) (s : State) : (s.storeFb m).reqs = s.reqs := rfl
@[simp] theorem State.storeFb_answers (m : List Host.Cell) (s : State) : (s.storeFb m).answers = s.answers := rfl
@[simp] theorem State.storeFb_params (m : List Host.Cell) (s : State) : (s.storeFb m).params = s.params := rfl
@[simp] theorem State.storeFb_sink (m : List Host.Cell) (s : State) : (s.storeFb m).sink = s.sink := rfl
@[simp] theorem State.storeFb_free (m : List Host.Cell) (s : State) : (s.storeFb m).free = s.free := rfl

/-! ### respond -/

@[simp] theorem State.respond_fb (st : Status) (s : State) : (s.respond st).fb = s.fb := rfl
@[simp] theorem State.respond_orient (st : Status) (s : State) : (s.respond st).orient = s.orient := rfl
@[simp] theorem State.respond_bias (st : Status) (s : State) : (s.respond st).bias = s.bias := rfl
@[simp] theorem State.respond_lc (st : Status) (s : State) : (s.respond st).lc = s.lc := rfl
@[simp] theorem State.respond_dc (st : Status) (s : State) : (s.respond st).dc = s.dc := rfl
@[simp] theorem State.respond_rst (st : Status) (s : State) : (s.respond st).rst = s.rst := rfl
@[simp] theorem State.respond_bl (st : Status) (s : State) : (s.respond st).bl = s.bl := rfl
@[simp] theorem State.respond_opx (st : Status) (s : State) : (s.respond st).opx = s.opx := rfl
@[simp] theorem State.respond_opy (st : Status) (s : State) : (s.respond st).opy = s.opy := rfl
@[simp] theorem State.respond_opv (st : Status) (s : State) : (s.respond st).opv = s.opv := rfl
@[simp] theorem State.respond_oplen (st : Status) (s : State) : (s.respond st).oplen = s.oplen := rfl
@[simp] theorem State.respond_payload (st : Status) (s : State) : (s.respond st).payload = s.payload := rfl
@[simp] theorem State.respond_seq (st : Status) (s : State) : (s.respond st).seq = .idle := rfl
@[simp] theorem State.respond_trace (st : Status) (s : State) : (s.respond st).trace = s.trace := rfl
@[simp] theorem State.respond_rsp (st : Status) (s : State) : (s.respond st).rsp = st.word s.opx s.opy := rfl
@[simp] theorem State.respond_responses (st : Status) (s : State) : (s.respond st).responses = s.responses ++ [st.word s.opx s.opy] := rfl
@[simp] theorem State.respond_reqs (st : Status) (s : State) : (s.respond st).reqs = s.reqs := rfl
@[simp] theorem State.respond_answers (st : Status) (s : State) : (s.respond st).answers = s.answers := rfl
@[simp] theorem State.respond_params (st : Status) (s : State) : (s.respond st).params = s.params := rfl
@[simp] theorem State.respond_sink (st : Status) (s : State) : (s.respond st).sink = s.sink := rfl
@[simp] theorem State.respond_free (st : Status) (s : State) : (s.respond st).free = s.free := rfl

@[simp] theorem State.raise_eq_respond (e : Status) (s : State) : s.raise e = s.respond e := rfl
@[simp] theorem State.returnOk_eq_respond (s : State) : s.returnOk = s.respond .ok := rfl

/-! ### setPin -/

@[simp] theorem State.setPin_fb (p : Pin) (v : Latch) (s : State) : (s.setPin p v).fb = s.fb := by cases p <;> rfl
@[simp] theorem State.setPin_orient (p : Pin) (v : Latch) (s : State) : (s.setPin p v).orient = s.orient := by cases p <;> rfl
@[simp] theorem State.setPin_bias (p : Pin) (v : Latch) (s : State) : (s.setPin p v).bias = s.bias := by cases p <;> rfl
@[simp] theorem State.setPin_lc (p : Pin) (v : Latch) (s : State) : (s.setPin p v).lc = s.lc := by cases p <;> rfl
@[simp] theorem State.setPin_dc (p : Pin) (v : Latch) (s : State) : (s.setPin p v).dc = if p = .dc then v else s.dc := by cases p <;> rfl
@[simp] theorem State.setPin_rst (p : Pin) (v : Latch) (s : State) : (s.setPin p v).rst = if p = .rst then v else s.rst := by cases p <;> rfl
@[simp] theorem State.setPin_bl (p : Pin) (v : Latch) (s : State) : (s.setPin p v).bl = if p = .bl then v else s.bl := by cases p <;> rfl
@[simp] theorem State.setPin_opx (p : Pin) (v : Latch) (s : State) : (s.setPin p v).opx = s.opx := by cases p <;> rfl
@[simp] theorem State.setPin_opy (p : Pin) (v : Latch) (s : State) : (s.setPin p v).opy = s.opy := by cases p <;> rfl
@[simp] theorem State.setPin_opv (p : Pin) (v : Latch) (s : State) : (s.setPin p v).opv = s.opv := by cases p <;> rfl
@[simp] theorem State.setPin_oplen (p : Pin) (v : Latch) (s : State) : (s.setPin p v).oplen = s.oplen := by cases p <;> rfl
@[simp] theorem State.setPin_payload (p : Pin) (v : Latch) (s : State) : (s.setPin p v).payload = s.payload := by cases p <;> rfl
@[simp] theorem State.setPin_seq (p : Pin) (v : Latch) (s : State) : (s.setPin p v).seq = s.seq := by cases p <;> rfl
@[simp] theorem State.setPin_trace (p : Pin) (v : Latch) (s : State) : (s.setPin p v).trace = s.trace := by cases p <;> rfl
@[simp] theorem State.setPin_rsp (p : Pin) (v : Latch) (s : State) : (s.setPin p v).rsp = s.rsp := by cases p <;> rfl
@[simp] theorem State.setPin_responses (p : Pin) (v : Latch) (s : State) : (s.setPin p v).responses = s.responses := by cases p <;> rfl
@[simp] theorem State.setPin_reqs (p : Pin) (v : Latch) (s : State) : (s.setPin p v).reqs = s.reqs := by cases p <;> rfl
@[simp] theorem State.setPin_answers (p : Pin) (v : Latch) (s : State) : (s.setPin p v).answers = s.answers := by cases p <;> rfl
@[simp] theorem State.setPin_params (p : Pin) (v : Latch) (s : State) : (s.setPin p v).params = s.params := by cases p <;> rfl
@[simp] theorem State.setPin_sink (p : Pin) (v : Latch) (s : State) : (s.setPin p v).sink = s.sink := by cases p <;> rfl
@[simp] theorem State.setPin_free (p : Pin) (v : Latch) (s : State) : (s.setPin p v).free = s.free := by cases p <;> rfl

/-! ### disturbSink -/

@[simp] theorem State.disturbSink_fb (s : State) : (s.disturbSink).fb = s.fb := rfl
@[simp] theorem State.disturbSink_orient (s : State) : (s.disturbSink).orient = s.orient := rfl
@[simp] theorem State.disturbSink_bias (s : State) : (s.disturbSink).bias = s.bias := rfl
@[simp] theorem State.disturbSink_lc (s : State) : (s.disturbSink).lc = s.lc := rfl
@[simp] theorem State.disturbSink_dc (s : State) : (s.disturbSink).dc = s.dc := rfl
@[simp] theorem State.disturbSink_rst (s : State) : (s.disturbSink).rst = s.rst := rfl
@[simp] theorem State.disturbSink_bl (s : State) : (s.disturbSink).bl = s.bl := rfl
@[simp] theorem State.disturbSink_opx (s : State) : (s.disturbSink).opx = s.opx := rfl
@[simp] theorem State.disturbSink_opy (s : State) : (s.disturbSink).opy = s.opy := rfl
@[simp] theorem State.disturbSink_opv (s : State) : (s.disturbSink).opv = s.opv := rfl
@[simp] theorem State.disturbSink_oplen (s : State) : (s.disturbSink).oplen = s.oplen := rfl
@[simp] theorem State.disturbSink_payload (s : State) : (s.disturbSink).payload = s.payload := rfl
@[simp] theorem State.disturbSink_seq (s : State) : (s.disturbSink).seq = s.seq := rfl
@[simp] theorem State.disturbSink_trace (s : State) : (s.disturbSink).trace = s.trace := rfl
@[simp] theorem State.disturbSink_rsp (s : State) : (s.disturbSink).rsp = s.rsp := rfl
@[simp] theorem State.disturbSink_responses (s : State) : (s.disturbSink).responses = s.responses := rfl
@[simp] theorem State.disturbSink_reqs (s : State) : (s.disturbSink).reqs = s.reqs := rfl
@[simp] theorem State.disturbSink_answers (s : State) : (s.disturbSink).answers = s.answers := rfl
@[simp] theorem State.disturbSink_params (s : State) : (s.disturbSink).params = s.params := rfl
@[simp] theorem State.disturbSink_sink (s : State) : (s.disturbSink).sink = s.sink.arbitrary s.params.sinkCols s.free := rfl
@[simp] theorem State.disturbSink_free (s : State) : (s.disturbSink).free = s.free + 1 := rfl

/-! ### pulseSink -/

@[simp] theorem State.pulseSink_fb (s : State) : (s.pulseSink).fb = s.fb := rfl
@[simp] theorem State.pulseSink_orient (s : State) : (s.pulseSink).orient = s.orient := rfl
@[simp] theorem State.pulseSink_bias (s : State) : (s.pulseSink).bias = s.bias := rfl
@[simp] theorem State.pulseSink_lc (s : State) : (s.pulseSink).lc = s.lc := rfl
@[simp] theorem State.pulseSink_dc (s : State) : (s.pulseSink).dc = s.dc := rfl
@[simp] theorem State.pulseSink_rst (s : State) : (s.pulseSink).rst = s.rst := rfl
@[simp] theorem State.pulseSink_bl (s : State) : (s.pulseSink).bl = s.bl := rfl
@[simp] theorem State.pulseSink_opx (s : State) : (s.pulseSink).opx = s.opx := rfl
@[simp] theorem State.pulseSink_opy (s : State) : (s.pulseSink).opy = s.opy := rfl
@[simp] theorem State.pulseSink_opv (s : State) : (s.pulseSink).opv = s.opv := rfl
@[simp] theorem State.pulseSink_oplen (s : State) : (s.pulseSink).oplen = s.oplen := rfl
@[simp] theorem State.pulseSink_payload (s : State) : (s.pulseSink).payload = s.payload := rfl
@[simp] theorem State.pulseSink_seq (s : State) : (s.pulseSink).seq = s.seq := rfl
@[simp] theorem State.pulseSink_trace (s : State) : (s.pulseSink).trace = s.trace := rfl
@[simp] theorem State.pulseSink_rsp (s : State) : (s.pulseSink).rsp = s.rsp := rfl
@[simp] theorem State.pulseSink_responses (s : State) : (s.pulseSink).responses = s.responses := rfl
@[simp] theorem State.pulseSink_reqs (s : State) : (s.pulseSink).reqs = s.reqs := rfl
@[simp] theorem State.pulseSink_answers (s : State) : (s.pulseSink).answers = s.answers := rfl
@[simp] theorem State.pulseSink_params (s : State) : (s.pulseSink).params = s.params := rfl
@[simp] theorem State.pulseSink_sink (s : State) : (s.pulseSink).sink = { s.sink.arbitrary s.params.sinkCols s.free with awaitsArg := s.sink.awaitsArg } := rfl
@[simp] theorem State.pulseSink_free (s : State) : (s.pulseSink).free = s.free + 1 := rfl

/-! ### pinReaches -/

@[simp] theorem State.pinReaches_fb (p : Pin) (s : State) : (s.pinReaches p).fb = s.fb := by cases p <;> rfl
@[simp] theorem State.pinReaches_orient (p : Pin) (s : State) : (s.pinReaches p).orient = s.orient := by cases p <;> rfl
@[simp] theorem State.pinReaches_bias (p : Pin) (s : State) : (s.pinReaches p).bias = s.bias := by cases p <;> rfl
@[simp] theorem State.pinReaches_lc (p : Pin) (s : State) : (s.pinReaches p).lc = s.lc := by cases p <;> rfl
@[simp] theorem State.pinReaches_dc (p : Pin) (s : State) : (s.pinReaches p).dc = s.dc := by cases p <;> rfl
@[simp] theorem State.pinReaches_rst (p : Pin) (s : State) : (s.pinReaches p).rst = s.rst := by cases p <;> rfl
@[simp] theorem State.pinReaches_bl (p : Pin) (s : State) : (s.pinReaches p).bl = s.bl := by cases p <;> rfl
@[simp] theorem State.pinReaches_opx (p : Pin) (s : State) : (s.pinReaches p).opx = s.opx := by cases p <;> rfl
@[simp] theorem State.pinReaches_opy (p : Pin) (s : State) : (s.pinReaches p).opy = s.opy := by cases p <;> rfl
@[simp] theorem State.pinReaches_opv (p : Pin) (s : State) : (s.pinReaches p).opv = s.opv := by cases p <;> rfl
@[simp] theorem State.pinReaches_oplen (p : Pin) (s : State) : (s.pinReaches p).oplen = s.oplen := by cases p <;> rfl
@[simp] theorem State.pinReaches_payload (p : Pin) (s : State) : (s.pinReaches p).payload = s.payload := by cases p <;> rfl
@[simp] theorem State.pinReaches_seq (p : Pin) (s : State) : (s.pinReaches p).seq = s.seq := by cases p <;> rfl
@[simp] theorem State.pinReaches_trace (p : Pin) (s : State) : (s.pinReaches p).trace = s.trace := by cases p <;> rfl
@[simp] theorem State.pinReaches_rsp (p : Pin) (s : State) : (s.pinReaches p).rsp = s.rsp := by cases p <;> rfl
@[simp] theorem State.pinReaches_responses (p : Pin) (s : State) : (s.pinReaches p).responses = s.responses := by cases p <;> rfl
@[simp] theorem State.pinReaches_reqs (p : Pin) (s : State) : (s.pinReaches p).reqs = s.reqs := by cases p <;> rfl
@[simp] theorem State.pinReaches_answers (p : Pin) (s : State) : (s.pinReaches p).answers = s.answers := by cases p <;> rfl
@[simp] theorem State.pinReaches_params (p : Pin) (s : State) : (s.pinReaches p).params = s.params := by cases p <;> rfl
@[simp] theorem State.pinReaches_sink (p : Pin) (s : State) : (s.pinReaches p).sink = if p = .rst then { s.sink.arbitrary s.params.sinkCols s.free with awaitsArg := s.sink.awaitsArg } else s.sink := by cases p <;> rfl
@[simp] theorem State.pinReaches_free (p : Pin) (s : State) : (s.pinReaches p).free = if p = .rst then s.free + 1 else s.free := by cases p <;> rfl

/-! ### record -/

@[simp] theorem State.record_fb (e : Event) (s : State) : (s.record e).fb = s.fb := rfl
@[simp] theorem State.record_orient (e : Event) (s : State) : (s.record e).orient = s.orient := rfl
@[simp] theorem State.record_bias (e : Event) (s : State) : (s.record e).bias = s.bias := rfl
@[simp] theorem State.record_lc (e : Event) (s : State) : (s.record e).lc = s.lc := rfl
@[simp] theorem State.record_dc (e : Event) (s : State) : (s.record e).dc = s.dc := rfl
@[simp] theorem State.record_rst (e : Event) (s : State) : (s.record e).rst = s.rst := rfl
@[simp] theorem State.record_bl (e : Event) (s : State) : (s.record e).bl = s.bl := rfl
@[simp] theorem State.record_opx (e : Event) (s : State) : (s.record e).opx = s.opx := rfl
@[simp] theorem State.record_opy (e : Event) (s : State) : (s.record e).opy = s.opy := rfl
@[simp] theorem State.record_opv (e : Event) (s : State) : (s.record e).opv = s.opv := rfl
@[simp] theorem State.record_oplen (e : Event) (s : State) : (s.record e).oplen = s.oplen := rfl
@[simp] theorem State.record_payload (e : Event) (s : State) : (s.record e).payload = s.payload := rfl
@[simp] theorem State.record_seq (e : Event) (s : State) : (s.record e).seq = s.seq := rfl
@[simp] theorem State.record_trace (e : Event) (s : State) : (s.record e).trace = s.trace ++ [e] := rfl
@[simp] theorem State.record_rsp (e : Event) (s : State) : (s.record e).rsp = s.rsp := rfl
@[simp] theorem State.record_responses (e : Event) (s : State) : (s.record e).responses = s.responses := rfl
@[simp] theorem State.record_reqs (e : Event) (s : State) : (s.record e).reqs = s.reqs := rfl
@[simp] theorem State.record_answers (e : Event) (s : State) : (s.record e).answers = s.answers := rfl
@[simp] theorem State.record_params (e : Event) (s : State) : (s.record e).params = s.params := rfl
@[simp] theorem State.record_sink (e : Event) (s : State) : (s.record e).sink = s.sink := rfl
@[simp] theorem State.record_free (e : Event) (s : State) : (s.record e).free = s.free := rfl

/-! ### setLc -/

@[simp] theorem State.setLc_fb (l : Option Lifecycle) (s : State) : (s.setLc l).fb = s.fb := by cases l <;> rfl
@[simp] theorem State.setLc_orient (l : Option Lifecycle) (s : State) : (s.setLc l).orient = s.orient := by cases l <;> rfl
@[simp] theorem State.setLc_bias (l : Option Lifecycle) (s : State) : (s.setLc l).bias = s.bias := by cases l <;> rfl
@[simp] theorem State.setLc_lc (l : Option Lifecycle) (s : State) : (s.setLc l).lc = l.getD s.lc := by cases l <;> rfl
@[simp] theorem State.setLc_dc (l : Option Lifecycle) (s : State) : (s.setLc l).dc = s.dc := by cases l <;> rfl
@[simp] theorem State.setLc_rst (l : Option Lifecycle) (s : State) : (s.setLc l).rst = s.rst := by cases l <;> rfl
@[simp] theorem State.setLc_bl (l : Option Lifecycle) (s : State) : (s.setLc l).bl = s.bl := by cases l <;> rfl
@[simp] theorem State.setLc_opx (l : Option Lifecycle) (s : State) : (s.setLc l).opx = s.opx := by cases l <;> rfl
@[simp] theorem State.setLc_opy (l : Option Lifecycle) (s : State) : (s.setLc l).opy = s.opy := by cases l <;> rfl
@[simp] theorem State.setLc_opv (l : Option Lifecycle) (s : State) : (s.setLc l).opv = s.opv := by cases l <;> rfl
@[simp] theorem State.setLc_oplen (l : Option Lifecycle) (s : State) : (s.setLc l).oplen = s.oplen := by cases l <;> rfl
@[simp] theorem State.setLc_payload (l : Option Lifecycle) (s : State) : (s.setLc l).payload = s.payload := by cases l <;> rfl
@[simp] theorem State.setLc_seq (l : Option Lifecycle) (s : State) : (s.setLc l).seq = s.seq := by cases l <;> rfl
@[simp] theorem State.setLc_trace (l : Option Lifecycle) (s : State) : (s.setLc l).trace = s.trace := by cases l <;> rfl
@[simp] theorem State.setLc_rsp (l : Option Lifecycle) (s : State) : (s.setLc l).rsp = s.rsp := by cases l <;> rfl
@[simp] theorem State.setLc_responses (l : Option Lifecycle) (s : State) : (s.setLc l).responses = s.responses := by cases l <;> rfl
@[simp] theorem State.setLc_reqs (l : Option Lifecycle) (s : State) : (s.setLc l).reqs = s.reqs := by cases l <;> rfl
@[simp] theorem State.setLc_answers (l : Option Lifecycle) (s : State) : (s.setLc l).answers = s.answers := by cases l <;> rfl
@[simp] theorem State.setLc_params (l : Option Lifecycle) (s : State) : (s.setLc l).params = s.params := by cases l <;> rfl
@[simp] theorem State.setLc_sink (l : Option Lifecycle) (s : State) : (s.setLc l).sink = s.sink := by cases l <;> rfl
@[simp] theorem State.setLc_free (l : Option Lifecycle) (s : State) : (s.setLc l).free = s.free := by cases l <;> rfl

/-! ### takeAnswer -/

@[simp] theorem State.takeAnswer_fb (s : State) : (s.takeAnswer).fb = s.fb := rfl
@[simp] theorem State.takeAnswer_orient (s : State) : (s.takeAnswer).orient = s.orient := rfl
@[simp] theorem State.takeAnswer_bias (s : State) : (s.takeAnswer).bias = s.bias := rfl
@[simp] theorem State.takeAnswer_lc (s : State) : (s.takeAnswer).lc = s.lc := rfl
@[simp] theorem State.takeAnswer_dc (s : State) : (s.takeAnswer).dc = s.dc := rfl
@[simp] theorem State.takeAnswer_rst (s : State) : (s.takeAnswer).rst = s.rst := rfl
@[simp] theorem State.takeAnswer_bl (s : State) : (s.takeAnswer).bl = s.bl := rfl
@[simp] theorem State.takeAnswer_opx (s : State) : (s.takeAnswer).opx = s.opx := rfl
@[simp] theorem State.takeAnswer_opy (s : State) : (s.takeAnswer).opy = s.opy := rfl
@[simp] theorem State.takeAnswer_opv (s : State) : (s.takeAnswer).opv = s.opv := rfl
@[simp] theorem State.takeAnswer_oplen (s : State) : (s.takeAnswer).oplen = s.oplen := rfl
@[simp] theorem State.takeAnswer_payload (s : State) : (s.takeAnswer).payload = s.payload := rfl
@[simp] theorem State.takeAnswer_seq (s : State) : (s.takeAnswer).seq = s.seq := rfl
@[simp] theorem State.takeAnswer_trace (s : State) : (s.takeAnswer).trace = s.trace := rfl
@[simp] theorem State.takeAnswer_rsp (s : State) : (s.takeAnswer).rsp = s.rsp := rfl
@[simp] theorem State.takeAnswer_responses (s : State) : (s.takeAnswer).responses = s.responses := rfl
@[simp] theorem State.takeAnswer_reqs (s : State) : (s.takeAnswer).reqs = s.reqs := rfl
@[simp] theorem State.takeAnswer_answers (s : State) : (s.takeAnswer).answers = s.answers.tail := rfl
@[simp] theorem State.takeAnswer_params (s : State) : (s.takeAnswer).params = s.params := rfl
@[simp] theorem State.takeAnswer_sink (s : State) : (s.takeAnswer).sink = s.sink := rfl
@[simp] theorem State.takeAnswer_free (s : State) : (s.takeAnswer).free = s.free := rfl

/-! ### deliver -/

@[simp] theorem State.deliver_fb (bytes : List Byte) (s : State) : (s.deliver bytes).fb = s.fb := by unfold State.deliver; split <;> first | rfl | (split <;> rfl)
@[simp] theorem State.deliver_orient (bytes : List Byte) (s : State) : (s.deliver bytes).orient = s.orient := by unfold State.deliver; split <;> first | rfl | (split <;> rfl)
@[simp] theorem State.deliver_bias (bytes : List Byte) (s : State) : (s.deliver bytes).bias = s.bias := by unfold State.deliver; split <;> first | rfl | (split <;> rfl)
@[simp] theorem State.deliver_lc (bytes : List Byte) (s : State) : (s.deliver bytes).lc = s.lc := by unfold State.deliver; split <;> first | rfl | (split <;> rfl)
@[simp] theorem State.deliver_dc (bytes : List Byte) (s : State) : (s.deliver bytes).dc = s.dc := by unfold State.deliver; split <;> first | rfl | (split <;> rfl)
@[simp] theorem State.deliver_rst (bytes : List Byte) (s : State) : (s.deliver bytes).rst = s.rst := by unfold State.deliver; split <;> first | rfl | (split <;> rfl)
@[simp] theorem State.deliver_bl (bytes : List Byte) (s : State) : (s.deliver bytes).bl = s.bl := by unfold State.deliver; split <;> first | rfl | (split <;> rfl)
@[simp] theorem State.deliver_opx (bytes : List Byte) (s : State) : (s.deliver bytes).opx = s.opx := by unfold State.deliver; split <;> first | rfl | (split <;> rfl)
@[simp] theorem State.deliver_opy (bytes : List Byte) (s : State) : (s.deliver bytes).opy = s.opy := by unfold State.deliver; split <;> first | rfl | (split <;> rfl)
@[simp] theorem State.deliver_opv (bytes : List Byte) (s : State) : (s.deliver bytes).opv = s.opv := by unfold State.deliver; split <;> first | rfl | (split <;> rfl)
@[simp] theorem State.deliver_oplen (bytes : List Byte) (s : State) : (s.deliver bytes).oplen = s.oplen := by unfold State.deliver; split <;> first | rfl | (split <;> rfl)
@[simp] theorem State.deliver_payload (bytes : List Byte) (s : State) : (s.deliver bytes).payload = s.payload := by unfold State.deliver; split <;> first | rfl | (split <;> rfl)
@[simp] theorem State.deliver_seq (bytes : List Byte) (s : State) : (s.deliver bytes).seq = s.seq := by unfold State.deliver; split <;> first | rfl | (split <;> rfl)
@[simp] theorem State.deliver_trace (bytes : List Byte) (s : State) : (s.deliver bytes).trace = s.trace := by unfold State.deliver; split <;> first | rfl | (split <;> rfl)
@[simp] theorem State.deliver_rsp (bytes : List Byte) (s : State) : (s.deliver bytes).rsp = s.rsp := by unfold State.deliver; split <;> first | rfl | (split <;> rfl)
@[simp] theorem State.deliver_responses (bytes : List Byte) (s : State) : (s.deliver bytes).responses = s.responses := by unfold State.deliver; split <;> first | rfl | (split <;> rfl)
@[simp] theorem State.deliver_reqs (bytes : List Byte) (s : State) : (s.deliver bytes).reqs = s.reqs := by unfold State.deliver; split <;> first | rfl | (split <;> rfl)
@[simp] theorem State.deliver_answers (bytes : List Byte) (s : State) : (s.deliver bytes).answers = s.answers := by unfold State.deliver; split <;> first | rfl | (split <;> rfl)
@[simp] theorem State.deliver_params (bytes : List Byte) (s : State) : (s.deliver bytes).params = s.params := by unfold State.deliver; split <;> first | rfl | (split <;> rfl)

/-! ### pinDrive -/

@[simp] theorem State.pinDrive_fb (p : Pin) (l : Level) (a : Answer) (s : State) : (s.pinDrive p l a).fb = s.fb := by cases p <;> rfl
@[simp] theorem State.pinDrive_orient (p : Pin) (l : Level) (a : Answer) (s : State) : (s.pinDrive p l a).orient = s.orient := by cases p <;> rfl
@[simp] theorem State.pinDrive_bias (p : Pin) (l : Level) (a : Answer) (s : State) : (s.pinDrive p l a).bias = s.bias := by cases p <;> rfl
@[simp] theorem State.pinDrive_lc (p : Pin) (l : Level) (a : Answer) (s : State) : (s.pinDrive p l a).lc = s.lc := by cases p <;> rfl
@[simp] theorem State.pinDrive_dc (p : Pin) (l : Level) (a : Answer) (s : State) : (s.pinDrive p l a).dc = if p = .dc then l.latchAfter a else s.dc := by cases p <;> rfl
@[simp] theorem State.pinDrive_rst (p : Pin) (l : Level) (a : Answer) (s : State) : (s.pinDrive p l a).rst = if p = .rst then l.latchAfter a else s.rst := by cases p <;> rfl
@[simp] theorem State.pinDrive_bl (p : Pin) (l : Level) (a : Answer) (s : State) : (s.pinDrive p l a).bl = if p = .bl then l.latchAfter a else s.bl := by cases p <;> rfl
@[simp] theorem State.pinDrive_opx (p : Pin) (l : Level) (a : Answer) (s : State) : (s.pinDrive p l a).opx = s.opx := by cases p <;> rfl
@[simp] theorem State.pinDrive_opy (p : Pin) (l : Level) (a : Answer) (s : State) : (s.pinDrive p l a).opy = s.opy := by cases p <;> rfl
@[simp] theorem State.pinDrive_opv (p : Pin) (l : Level) (a : Answer) (s : State) : (s.pinDrive p l a).opv = s.opv := by cases p <;> rfl
@[simp] theorem State.pinDrive_oplen (p : Pin) (l : Level) (a : Answer) (s : State) : (s.pinDrive p l a).oplen = s.oplen := by cases p <;> rfl
@[simp] theorem State.pinDrive_payload (p : Pin) (l : Level) (a : Answer) (s : State) : (s.pinDrive p l a).payload = s.payload := by cases p <;> rfl
@[simp] theorem State.pinDrive_seq (p : Pin) (l : Level) (a : Answer) (s : State) : (s.pinDrive p l a).seq = s.seq := by cases p <;> rfl
@[simp] theorem State.pinDrive_trace (p : Pin) (l : Level) (a : Answer) (s : State) : (s.pinDrive p l a).trace = s.trace ++ [.pin p l a] := by cases p <;> rfl
@[simp] theorem State.pinDrive_rsp (p : Pin) (l : Level) (a : Answer) (s : State) : (s.pinDrive p l a).rsp = s.rsp := by cases p <;> rfl
@[simp] theorem State.pinDrive_responses (p : Pin) (l : Level) (a : Answer) (s : State) : (s.pinDrive p l a).responses = s.responses := by cases p <;> rfl
@[simp] theorem State.pinDrive_reqs (p : Pin) (l : Level) (a : Answer) (s : State) : (s.pinDrive p l a).reqs = s.reqs := by cases p <;> rfl
@[simp] theorem State.pinDrive_answers (p : Pin) (l : Level) (a : Answer) (s : State) : (s.pinDrive p l a).answers = s.answers := by cases p <;> rfl
@[simp] theorem State.pinDrive_params (p : Pin) (l : Level) (a : Answer) (s : State) : (s.pinDrive p l a).params = s.params := by cases p <;> rfl
@[simp] theorem State.pinDrive_sink (p : Pin) (l : Level) (a : Answer) (s : State) : (s.pinDrive p l a).sink = if p = .rst then { s.sink.arbitrary s.params.sinkCols s.free with awaitsArg := s.sink.awaitsArg } else s.sink := by cases p <;> rfl
@[simp] theorem State.pinDrive_free (p : Pin) (l : Level) (a : Answer) (s : State) : (s.pinDrive p l a).free = if p = .rst then s.free + 1 else s.free := by cases p <;> rfl

/-! ### busWrite -/

@[simp] theorem State.busWrite_fb (bytes : List Byte) (a : Answer) (s : State) : (s.busWrite bytes a).fb = s.fb := by cases a <;> simp [State.busWrite]
@[simp] theorem State.busWrite_orient (bytes : List Byte) (a : Answer) (s : State) : (s.busWrite bytes a).orient = s.orient := by cases a <;> simp [State.busWrite]
@[simp] theorem State.busWrite_bias (bytes : List Byte) (a : Answer) (s : State) : (s.busWrite bytes a).bias = s.bias := by cases a <;> simp [State.busWrite]
@[simp] theorem State.busWrite_lc (bytes : List Byte) (a : Answer) (s : State) : (s.busWrite bytes a).lc = s.lc := by cases a <;> simp [State.busWrite]
@[simp] theorem State.busWrite_dc (bytes : List Byte) (a : Answer) (s : State) : (s.busWrite bytes a).dc = s.dc := by cases a <;> simp [State.busWrite]
@[simp] theorem State.busWrite_rst (bytes : List Byte) (a : Answer) (s : State) : (s.busWrite bytes a).rst = s.rst := by cases a <;> simp [State.busWrite]
@[simp] theorem State.busWrite_bl (bytes : List Byte) (a : Answer) (s : State) : (s.busWrite bytes a).bl = s.bl := by cases a <;> simp [State.busWrite]
@[simp] theorem State.busWrite_opx (bytes : List Byte) (a : Answer) (s : State) : (s.busWrite bytes a).opx = s.opx := by cases a <;> simp [State.busWrite]
@[simp] theorem State.busWrite_opy (bytes : List Byte) (a : Answer) (s : State) : (s.busWrite bytes a).opy = s.opy := by cases a <;> simp [State.busWrite]
@[simp] theorem State.busWrite_opv (bytes : List Byte) (a : Answer) (s : State) : (s.busWrite bytes a).opv = s.opv := by cases a <;> simp [State.busWrite]
@[simp] theorem State.busWrite_oplen (bytes : List Byte) (a : Answer) (s : State) : (s.busWrite bytes a).oplen = s.oplen := by cases a <;> simp [State.busWrite]
@[simp] theorem State.busWrite_payload (bytes : List Byte) (a : Answer) (s : State) : (s.busWrite bytes a).payload = s.payload := by cases a <;> simp [State.busWrite]
@[simp] theorem State.busWrite_seq (bytes : List Byte) (a : Answer) (s : State) : (s.busWrite bytes a).seq = s.seq := by cases a <;> simp [State.busWrite]
@[simp] theorem State.busWrite_trace (bytes : List Byte) (a : Answer) (s : State) : (s.busWrite bytes a).trace = s.trace ++ [.bus bytes a] := by cases a <;> simp [State.busWrite]
@[simp] theorem State.busWrite_rsp (bytes : List Byte) (a : Answer) (s : State) : (s.busWrite bytes a).rsp = s.rsp := by cases a <;> simp [State.busWrite]
@[simp] theorem State.busWrite_responses (bytes : List Byte) (a : Answer) (s : State) : (s.busWrite bytes a).responses = s.responses := by cases a <;> simp [State.busWrite]
@[simp] theorem State.busWrite_reqs (bytes : List Byte) (a : Answer) (s : State) : (s.busWrite bytes a).reqs = s.reqs := by cases a <;> simp [State.busWrite]
@[simp] theorem State.busWrite_answers (bytes : List Byte) (a : Answer) (s : State) : (s.busWrite bytes a).answers = s.answers := by cases a <;> simp [State.busWrite]
@[simp] theorem State.busWrite_params (bytes : List Byte) (a : Answer) (s : State) : (s.busWrite bytes a).params = s.params := by cases a <;> simp [State.busWrite]
@[simp] theorem State.busWrite_sink (bytes : List Byte) (a : Answer) (s : State) : (s.busWrite bytes a).sink = if a = .ok then (s.deliver bytes).sink else s.sink := by cases a <;> simp [State.busWrite]
@[simp] theorem State.busWrite_free (bytes : List Byte) (a : Answer) (s : State) : (s.busWrite bytes a).free = if a = .ok then (s.deliver bytes).free else s.free := by cases a <;> simp [State.busWrite]

/-! ### perform -/

@[simp] theorem State.perform_fb (r : PortRequest) (a : Answer) (s : State) : (s.perform r a).fb = s.fb := by cases r <;> simp [State.perform]
@[simp] theorem State.perform_orient (r : PortRequest) (a : Answer) (s : State) : (s.perform r a).orient = s.orient := by cases r <;> simp [State.perform]
@[simp] theorem State.perform_bias (r : PortRequest) (a : Answer) (s : State) : (s.perform r a).bias = s.bias := by cases r <;> simp [State.perform]
@[simp] theorem State.perform_lc (r : PortRequest) (a : Answer) (s : State) : (s.perform r a).lc = s.lc := by cases r <;> simp [State.perform]
@[simp] theorem State.perform_opx (r : PortRequest) (a : Answer) (s : State) : (s.perform r a).opx = s.opx := by cases r <;> simp [State.perform]
@[simp] theorem State.perform_opy (r : PortRequest) (a : Answer) (s : State) : (s.perform r a).opy = s.opy := by cases r <;> simp [State.perform]
@[simp] theorem State.perform_opv (r : PortRequest) (a : Answer) (s : State) : (s.perform r a).opv = s.opv := by cases r <;> simp [State.perform]
@[simp] theorem State.perform_oplen (r : PortRequest) (a : Answer) (s : State) : (s.perform r a).oplen = s.oplen := by cases r <;> simp [State.perform]
@[simp] theorem State.perform_payload (r : PortRequest) (a : Answer) (s : State) : (s.perform r a).payload = s.payload := by cases r <;> simp [State.perform]
@[simp] theorem State.perform_seq (r : PortRequest) (a : Answer) (s : State) : (s.perform r a).seq = s.seq := by cases r <;> simp [State.perform]
@[simp] theorem State.perform_trace (r : PortRequest) (a : Answer) (s : State) : (s.perform r a).trace = s.trace ++ [r.event a] := by cases r <;> simp [State.perform, PortRequest.event]
@[simp] theorem State.perform_rsp (r : PortRequest) (a : Answer) (s : State) : (s.perform r a).rsp = s.rsp := by cases r <;> simp [State.perform]
@[simp] theorem State.perform_responses (r : PortRequest) (a : Answer) (s : State) : (s.perform r a).responses = s.responses := by cases r <;> simp [State.perform]
@[simp] theorem State.perform_reqs (r : PortRequest) (a : Answer) (s : State) : (s.perform r a).reqs = s.reqs := by cases r <;> simp [State.perform]
@[simp] theorem State.perform_answers (r : PortRequest) (a : Answer) (s : State) : (s.perform r a).answers = s.answers := by cases r <;> simp [State.perform]
@[simp] theorem State.perform_params (r : PortRequest) (a : Answer) (s : State) : (s.perform r a).params = s.params := by cases r <;> simp [State.perform]

/-! ### withRequest -/

@[simp] theorem State.withRequest_fb (r : Request) (s : State) : (s.withRequest r).fb = s.fb := rfl
@[simp] theorem State.withRequest_orient (r : Request) (s : State) : (s.withRequest r).orient = s.orient := rfl
@[simp] theorem State.withRequest_bias (r : Request) (s : State) : (s.withRequest r).bias = s.bias := rfl
@[simp] theorem State.withRequest_lc (r : Request) (s : State) : (s.withRequest r).lc = s.lc := rfl
@[simp] theorem State.withRequest_dc (r : Request) (s : State) : (s.withRequest r).dc = s.dc := rfl
@[simp] theorem State.withRequest_rst (r : Request) (s : State) : (s.withRequest r).rst = s.rst := rfl
@[simp] theorem State.withRequest_bl (r : Request) (s : State) : (s.withRequest r).bl = s.bl := rfl
@[simp] theorem State.withRequest_opx (r : Request) (s : State) : (s.withRequest r).opx = s.opx := rfl
@[simp] theorem State.withRequest_opy (r : Request) (s : State) : (s.withRequest r).opy = s.opy := rfl
@[simp] theorem State.withRequest_opv (r : Request) (s : State) : (s.withRequest r).opv = s.opv := rfl
@[simp] theorem State.withRequest_oplen (r : Request) (s : State) : (s.withRequest r).oplen = s.oplen := rfl
@[simp] theorem State.withRequest_payload (r : Request) (s : State) : (s.withRequest r).payload = s.payload := rfl
@[simp] theorem State.withRequest_seq (r : Request) (s : State) : (s.withRequest r).seq = .idle := rfl
@[simp] theorem State.withRequest_trace (r : Request) (s : State) : (s.withRequest r).trace = s.trace := rfl
@[simp] theorem State.withRequest_rsp (r : Request) (s : State) : (s.withRequest r).rsp = s.rsp := rfl
@[simp] theorem State.withRequest_responses (r : Request) (s : State) : (s.withRequest r).responses = s.responses := rfl
@[simp] theorem State.withRequest_reqs (r : Request) (s : State) : (s.withRequest r).reqs = r :: s.reqs := rfl
@[simp] theorem State.withRequest_answers (r : Request) (s : State) : (s.withRequest r).answers = s.answers := rfl
@[simp] theorem State.withRequest_params (r : Request) (s : State) : (s.withRequest r).params = s.params := rfl
@[simp] theorem State.withRequest_sink (r : Request) (s : State) : (s.withRequest r).sink = s.sink := rfl
@[simp] theorem State.withRequest_free (r : Request) (s : State) : (s.withRequest r).free = s.free := rfl

/-! ### answer -/

@[simp] theorem State.answer_fb (a : Answer) (s : State) : (s.answer a).fb = s.fb := rfl
@[simp] theorem State.answer_orient (a : Answer) (s : State) : (s.answer a).orient = s.orient := rfl
@[simp] theorem State.answer_bias (a : Answer) (s : State) : (s.answer a).bias = s.bias := rfl
@[simp] theorem State.answer_lc (a : Answer) (s : State) : (s.answer a).lc = s.lc := rfl
@[simp] theorem State.answer_dc (a : Answer) (s : State) : (s.answer a).dc = s.dc := rfl
@[simp] theorem State.answer_rst (a : Answer) (s : State) : (s.answer a).rst = s.rst := rfl
@[simp] theorem State.answer_bl (a : Answer) (s : State) : (s.answer a).bl = s.bl := rfl
@[simp] theorem State.answer_opx (a : Answer) (s : State) : (s.answer a).opx = s.opx := rfl
@[simp] theorem State.answer_opy (a : Answer) (s : State) : (s.answer a).opy = s.opy := rfl
@[simp] theorem State.answer_opv (a : Answer) (s : State) : (s.answer a).opv = s.opv := rfl
@[simp] theorem State.answer_oplen (a : Answer) (s : State) : (s.answer a).oplen = s.oplen := rfl
@[simp] theorem State.answer_payload (a : Answer) (s : State) : (s.answer a).payload = s.payload := rfl
@[simp] theorem State.answer_seq (a : Answer) (s : State) : (s.answer a).seq = s.seq := rfl
@[simp] theorem State.answer_trace (a : Answer) (s : State) : (s.answer a).trace = s.trace := rfl
@[simp] theorem State.answer_rsp (a : Answer) (s : State) : (s.answer a).rsp = s.rsp := rfl
@[simp] theorem State.answer_responses (a : Answer) (s : State) : (s.answer a).responses = s.responses := rfl
@[simp] theorem State.answer_reqs (a : Answer) (s : State) : (s.answer a).reqs = s.reqs := rfl
@[simp] theorem State.answer_answers (a : Answer) (s : State) : (s.answer a).answers = s.answers ++ [a] := rfl
@[simp] theorem State.answer_params (a : Answer) (s : State) : (s.answer a).params = s.params := rfl
@[simp] theorem State.answer_sink (a : Answer) (s : State) : (s.answer a).sink = s.sink := rfl
@[simp] theorem State.answer_free (a : Answer) (s : State) : (s.answer a).free = s.free := rfl

end Sys2Proof.Machine
end

