-- ==== Sys2Proof/Laws/Memory.lean ====
section
/-! SUPPORT. What the memory operations do: a read after a write, and that every write keeps the canonical form. -/

namespace Sys2Proof.Machine

theorem Memory.wfFrom_weaken {lo lo' : Nat} {m : List Host.Cell} (h : lo' ≤ lo) (hm : Memory.wfFrom lo m = true) :
    Memory.wfFrom lo' m = true := by
  cases m with
  | nil => rfl
  | cons c m =>
    simp only [Memory.wfFrom, Bool.and_eq_true, decide_eq_true_eq] at hm ⊢
    exact ⟨⟨⟨h.trans hm.1.1.1, hm.1.1.2⟩, hm.1.2⟩, hm.2⟩

/-- Below the first offset of a canonical memory nothing is listed. -/
theorem Memory.read_below {lo a : Nat} {m : List Host.Cell} (hm : Memory.wfFrom lo m = true) (ha : a < lo) :
    Memory.read a m = Config.unlistedByte := by
  induction m generalizing lo with
  | nil => rfl
  | cons c m ih =>
    simp only [Memory.wfFrom, Bool.and_eq_true, decide_eq_true_eq] at hm
    have hne : c.1 ≠ a := by omega
    simp only [Memory.read, if_neg hne]
    exact ih hm.2 (by omega)

/-- A write keeps the canonical form. -/
theorem Memory.wfFrom_write {lo a : Nat} {b : Byte} {m : List Host.Cell} (hm : Memory.wfFrom lo m = true) (hlo : lo ≤ a)
    (ha : a < Config.fbLen) : Memory.wfFrom lo (Memory.write a b m) = true := by
  induction m generalizing lo with
  | nil => unfold Memory.write; split <;> simp_all [Memory.wfFrom]
  | cons c m ih =>
    obtain ⟨k, v⟩ := c
    simp only [Memory.wfFrom, Bool.and_eq_true, decide_eq_true_eq] at hm
    obtain ⟨⟨⟨h1, h2⟩, h3⟩, h4⟩ := hm
    unfold Memory.write
    split
    · split <;> simp_all [Memory.wfFrom]
    · split
      · subst_vars
        split
        · exact Memory.wfFrom_weaken (by omega) h4
        · simp_all [Memory.wfFrom]
      · simp only [Memory.wfFrom, Bool.and_eq_true, decide_eq_true_eq]
        exact ⟨⟨⟨h1, h2⟩, h3⟩, ih h4 (by omega)⟩

theorem Memory.wf_write {a : Nat} {b : Byte} {m : List Host.Cell} (hm : Memory.wf m = true) (ha : a < Config.fbLen) :
    Memory.wf (Memory.write a b m) = true := Memory.wfFrom_write hm (Nat.zero_le _) ha

/-- A run of bytes inside the framebuffer keeps the canonical form. -/
theorem Memory.wf_writeBytes {a : Nat} {bs : List Byte} {m : List Host.Cell} (hm : Memory.wf m = true)
    (ha : a + bs.length ≤ Config.fbLen) : Memory.wf (Memory.writeBytes a bs m) = true := by
  induction bs generalizing a m with
  | nil => exact hm
  | cons b bs ih =>
    simp only [List.length_cons] at ha
    exact ih (Memory.wf_write hm (by omega)) (by omega)

theorem Memory.read_cons (a k : Nat) (v : Byte) (m : List Host.Cell) :
    Memory.read a ((k, v) :: m) = if a = k then v else Memory.read a m := by
  by_cases h : a = k
  · simp [Memory.read, h]
  · rw [if_neg h, Memory.read, if_neg (Ne.symm h)]

/-- A read after a write: the written byte at its offset, the old one everywhere else. -/
theorem Memory.read_write {lo a k : Nat} {b : Byte} {m : List Host.Cell} (hm : Memory.wfFrom lo m = true) :
    Memory.read k (Memory.write a b m) = if k = a then b else Memory.read k m := by
  induction m generalizing lo with
  | nil =>
    unfold Memory.write
    split
    · next hb => simp [Memory.read, hb]
    · rw [Memory.read_cons]
  | cons c m ih =>
    obtain ⟨j, v⟩ := c
    have hw := hm
    simp only [Memory.wfFrom, Bool.and_eq_true, decide_eq_true_eq] at hm
    obtain ⟨⟨⟨h1, h2⟩, h3⟩, h4⟩ := hm
    unfold Memory.write
    by_cases haj : a < j
    · rw [if_pos haj]
      have hb : Memory.read a ((j, v) :: m) = Config.unlistedByte := by
        rw [Memory.read_cons, if_neg (by omega)]
        exact Memory.read_below h4 (by omega)
      split
      · next h =>
        by_cases hk : k = a
        · rw [if_pos hk, hk, hb, h]
        · rw [if_neg hk]
      · rw [Memory.read_cons k a]
    · rw [if_neg haj]
      by_cases hj : a = j
      · rw [if_pos hj]
        have hb : Memory.read a m = Config.unlistedByte := Memory.read_below h4 (by omega)
        split
        · next h =>
          by_cases hk : k = a
          · rw [if_pos hk, hk, hb, h]
          · rw [if_neg hk, Memory.read_cons, if_neg (by omega)]
        · rw [Memory.read_cons, Memory.read_cons]
          by_cases hk : k = a
          · rw [if_pos hk, if_pos hk]
          · rw [if_neg hk, if_neg hk, if_neg (by omega)]
      · rw [if_neg hj, Memory.read_cons, Memory.read_cons, ih h4]
        by_cases hk : k = j
        · rw [if_pos hk, if_pos hk, if_neg (by omega)]
        · rw [if_neg hk, if_neg hk]

theorem Memory.read_write_of_wf {a k : Nat} {b : Byte} {m : List Host.Cell} (hm : Memory.wf m = true) :
    Memory.read k (Memory.write a b m) = if k = a then b else Memory.read k m := Memory.read_write hm

@[simp] theorem Memory.length_readBytes (a n : Nat) (m : List Host.Cell) : (Memory.readBytes a n m).length = n := by
  induction n generalizing a with
  | zero => rfl
  | succ n ih => simp [Memory.readBytes, ih]

theorem Memory.getElem?_readBytes (a n k : Nat) (m : List Host.Cell) :
    (Memory.readBytes a n m)[k]? = if k < n then some (Memory.read (a + k) m) else none := by
  induction n generalizing a k with
  | zero => simp [Memory.readBytes]
  | succ n ih =>
    cases k with
    | zero => simp [Memory.readBytes]
    | succ k =>
      simp only [Memory.readBytes, List.getElem?_cons_succ, ih, Nat.add_lt_add_iff_right]
      congr 3
      omega

/-- A read after a run of bytes was written. -/
theorem Memory.read_writeBytes {a k : Nat} {bs : List Byte} {m : List Host.Cell} (hm : Memory.wf m = true)
    (ha : a + bs.length ≤ Config.fbLen) :
    Memory.read k (Memory.writeBytes a bs m) =
      if a ≤ k ∧ k < a + bs.length then bs.getD (k - a) Config.unlistedByte else Memory.read k m := by
  induction bs generalizing a m with
  | nil => simp only [Memory.writeBytes, List.length_nil]; rw [if_neg (by omega)]
  | cons b bs ih =>
    simp only [List.length_cons] at ha ⊢
    rw [Memory.writeBytes, ih (Memory.wf_write hm (by omega)) (by omega), Memory.read_write_of_wf hm]
    by_cases hk : k = a
    · subst hk
      rw [if_neg (by omega), if_pos rfl, if_pos (by omega)]
      simp
    · rw [if_neg hk]
      by_cases h2 : a + 1 ≤ k ∧ k < a + 1 + bs.length
      · rw [if_pos h2, if_pos (by omega), show k - a = (k - (a + 1)) + 1 by omega]
        simp
      · rw [if_neg h2, if_neg (by omega)]

end Sys2Proof.Machine
end

