-- ==== Sys2Proof/Laws/Run.lean ====
section
/-! SUPPORT. Everything `runFrom` can do, said once: the three ways a list of lines ends (all answered `ok`, the first
`fail`, no answer left), and what no line ever writes. -/

namespace Sys2Proof.Machine

/-- The state after every line of a list was answered `ok`. -/
def State.afterOk : List Line → State → State
  | [], s => s
  | l :: ls, s => State.afterOk ls ((s.takeAnswer.perform l.port .ok).setLc l.onOk)

/-- The event a line leaves in the trace when it is answered `ok`. -/
def Line.okEvent (l : Line) : Event := l.port.event .ok

@[simp] theorem State.afterOk_trace (ls : List Line) (s : State) :
    (s.afterOk ls).trace = s.trace ++ ls.map Line.okEvent := by
  induction ls generalizing s with
  | nil => simp [State.afterOk]
  | cons l ls ih => simp [State.afterOk, ih, Line.okEvent]

@[simp] theorem State.afterOk_answers (ls : List Line) (s : State) :
    (s.afterOk ls).answers = s.answers.drop ls.length := by
  induction ls generalizing s with
  | nil => simp [State.afterOk]
  | cons l ls ih => simp [State.afterOk, ih]

@[simp] theorem State.afterOk_lc (ls : List Line) (s : State) :
    (s.afterOk ls).lc = ls.foldl (fun lc l => l.onOk.getD lc) s.lc := by
  induction ls generalizing s with
  | nil => rfl
  | cons l ls ih => simp [State.afterOk, ih]

/-- A field that no performed line writes is unchanged after any number of them. -/
theorem State.afterOk_keeps {α : Type} (f : State → α)
    (h : ∀ (s : State) (r : PortRequest) (l : Option Lifecycle), f ((s.takeAnswer.perform r .ok).setLc l) = f s)
    (ls : List Line) (s : State) : f (s.afterOk ls) = f s := by
  induction ls generalizing s with
  | nil => rfl
  | cons l ls ih => rw [State.afterOk, ih, h]

@[simp] theorem State.afterOk_fb (ls : List Line) (s : State) : (s.afterOk ls).fb = s.fb :=
  State.afterOk_keeps (fun t => t.fb) (by simp) ls s
@[simp] theorem State.afterOk_orient (ls : List Line) (s : State) : (s.afterOk ls).orient = s.orient :=
  State.afterOk_keeps (fun t => t.orient) (by simp) ls s
@[simp] theorem State.afterOk_bias (ls : List Line) (s : State) : (s.afterOk ls).bias = s.bias :=
  State.afterOk_keeps (fun t => t.bias) (by simp) ls s
@[simp] theorem State.afterOk_opx (ls : List Line) (s : State) : (s.afterOk ls).opx = s.opx :=
  State.afterOk_keeps (fun t => t.opx) (by simp) ls s
@[simp] theorem State.afterOk_opy (ls : List Line) (s : State) : (s.afterOk ls).opy = s.opy :=
  State.afterOk_keeps (fun t => t.opy) (by simp) ls s
@[simp] theorem State.afterOk_opv (ls : List Line) (s : State) : (s.afterOk ls).opv = s.opv :=
  State.afterOk_keeps (fun t => t.opv) (by simp) ls s
@[simp] theorem State.afterOk_oplen (ls : List Line) (s : State) : (s.afterOk ls).oplen = s.oplen :=
  State.afterOk_keeps (fun t => t.oplen) (by simp) ls s
@[simp] theorem State.afterOk_payload (ls : List Line) (s : State) : (s.afterOk ls).payload = s.payload :=
  State.afterOk_keeps (fun t => t.payload) (by simp) ls s
@[simp] theorem State.afterOk_seq (ls : List Line) (s : State) : (s.afterOk ls).seq = s.seq :=
  State.afterOk_keeps (fun t => t.seq) (by simp) ls s
@[simp] theorem State.afterOk_rsp (ls : List Line) (s : State) : (s.afterOk ls).rsp = s.rsp :=
  State.afterOk_keeps (fun t => t.rsp) (by simp) ls s
@[simp] theorem State.afterOk_responses (ls : List Line) (s : State) : (s.afterOk ls).responses = s.responses :=
  State.afterOk_keeps (fun t => t.responses) (by simp) ls s
@[simp] theorem State.afterOk_reqs (ls : List Line) (s : State) : (s.afterOk ls).reqs = s.reqs :=
  State.afterOk_keeps (fun t => t.reqs) (by simp) ls s
@[simp] theorem State.afterOk_params (ls : List Line) (s : State) : (s.afterOk ls).params = s.params :=
  State.afterOk_keeps (fun t => t.params) (by simp) ls s

/-- The state a line answered `fail` ends its operation in (R206). -/
def State.afterFail (l : Line) (s : State) : State :=
  ((s.takeAnswer.perform l.port .fail).setLc l.onFail).raise l.port.error

/-- The state of an operation that waits at step `n`. -/
def State.waiting (op : Op) (n : Nat) (s : State) : State := { s with seq := .busy op n (pageAt op n) }

/-- Every line answered `ok`. -/
theorem State.runFrom_ok (op : Op) (n : Nat) (ls : List Line) (s : State) (rest : List Answer)
    (h : s.answers = List.replicate ls.length .ok ++ rest) : s.runFrom op n ls = (s.afterOk ls).returnOk := by
  induction ls generalizing n s with
  | nil => rfl
  | cons l ls ih =>
    rw [List.length_cons, List.replicate_succ, List.cons_append] at h
    rw [State.runFrom]
    split
    · next h0 => rw [h0] at h; cases h
    · exact ih _ _ (by simp [h])
    · next h0 => rw [h0] at h; cases h

/-- The first `fail` after `k` lines answered `ok`. -/
theorem State.runFrom_fail (op : Op) (n k : Nat) (ls : List Line) (l : Line) (s : State) (rest : List Answer)
    (hk : ls[k]? = some l) (h : s.answers = List.replicate k .ok ++ .fail :: rest) :
    s.runFrom op n ls = (s.afterOk (ls.take k)).afterFail l := by
  induction k generalizing n ls s with
  | zero =>
    cases ls with
    | nil => cases hk
    | cons l' ls =>
      simp only [List.getElem?_cons_zero, Option.some.injEq] at hk
      subst hk
      simp only [List.replicate_zero, List.nil_append] at h
      rw [State.runFrom]
      split
      · next h0 => rw [h0] at h; cases h
      · next h0 => rw [h0] at h; cases h
      · rfl
  | succ k ih =>
    cases ls with
    | nil => cases hk
    | cons l' ls =>
      rw [List.getElem?_cons_succ] at hk
      rw [List.replicate_succ, List.cons_append] at h
      rw [State.runFrom]
      split
      · next h0 => rw [h0] at h; cases h
      · rw [List.take_succ_cons, State.afterOk]
        exact ih _ ls _ hk (by simp [h])
      · next h0 => rw [h0] at h; cases h

/-- Fewer answers than lines, all of them `ok`: the operation waits at the first unanswered line. -/
theorem State.runFrom_wait (op : Op) (n k : Nat) (ls : List Line) (s : State) (hk : k < ls.length)
    (h : s.answers = List.replicate k .ok) : s.runFrom op n ls = (s.afterOk (ls.take k)).waiting op (n + k) := by
  induction k generalizing n ls s with
  | zero =>
    cases ls with
    | nil => cases hk
    | cons l' ls =>
      rw [State.runFrom]
      split
      · rfl
      · next h0 => rw [h0] at h; cases h
      · next h0 => rw [h0] at h; cases h
  | succ k ih =>
    cases ls with
    | nil => cases hk
    | cons l' ls =>
      rw [List.replicate_succ] at h
      rw [State.runFrom]
      split
      · next h0 => rw [h0] at h; cases h
      · rw [List.take_succ_cons, State.afterOk, show n + (k + 1) = n + 1 + k by omega]
        exact ih _ ls _ (by simpa using hk) (by simp [h])
      · next h0 => rw [h0] at h; cases h

/-- Every list of answers, seen from `m` lines, is one of three: `m` times `ok` first, a first `fail` before that, or fewer
than `m` answers, all `ok`. -/
theorem answers_cases (m : Nat) (as : List Answer) :
    (∃ rest, as = List.replicate m .ok ++ rest) ∨
    (∃ k rest, k < m ∧ as = List.replicate k .ok ++ .fail :: rest) ∨
    (∃ k, k < m ∧ as = List.replicate k .ok) := by
  induction m generalizing as with
  | zero => exact .inl ⟨as, rfl⟩
  | succ m ih =>
    cases as with
    | nil => exact .inr (.inr ⟨0, by omega, rfl⟩)
    | cons a as =>
      cases a with
      | fail => exact .inr (.inl ⟨0, as, by omega, rfl⟩)
      | ok =>
        rcases ih as with ⟨rest, h⟩ | ⟨k, rest, hk, h⟩ | ⟨k, hk, h⟩
        · exact .inl ⟨rest, by rw [h]; rfl⟩
        · exact .inr (.inl ⟨k + 1, rest, by omega, by rw [h]; rfl⟩)
        · exact .inr (.inr ⟨k + 1, by omega, by rw [h]; rfl⟩)

/-- Everything running a list of lines can do. -/
theorem State.runFrom_cases (op : Op) (n : Nat) (ls : List Line) (s : State) :
    (∃ rest, s.answers = List.replicate ls.length .ok ++ rest ∧ s.runFrom op n ls = (s.afterOk ls).returnOk) ∨
    (∃ k l rest, ls[k]? = some l ∧ s.answers = List.replicate k .ok ++ .fail :: rest ∧
      s.runFrom op n ls = (s.afterOk (ls.take k)).afterFail l) ∨
    (∃ k, k < ls.length ∧ s.answers = List.replicate k .ok ∧
      s.runFrom op n ls = (s.afterOk (ls.take k)).waiting op (n + k)) := by
  rcases answers_cases ls.length s.answers with ⟨rest, h⟩ | ⟨k, rest, hk, h⟩ | ⟨k, hk, h⟩
  · exact .inl ⟨rest, h, State.runFrom_ok op n ls s rest h⟩
  · exact .inr (.inl ⟨k, ls[k], rest, by simp [hk], h, State.runFrom_fail op n k ls _ s rest (by simp [hk]) h⟩)
  · exact .inr (.inr ⟨k, hk, h, State.runFrom_wait op n k ls s hk h⟩)

/-- A field that neither performing a line, nor the lifecycle, nor the response, nor the sequencer writes is unchanged by a
run of lines. -/
theorem State.runFrom_keeps {α : Type} (f : State → α)
    (hp : ∀ (s : State) (r : PortRequest) (a : Answer) (l : Option Lifecycle), f ((s.takeAnswer.perform r a).setLc l) = f s)
    (hr : ∀ (s : State) (st : Status), f (s.respond st) = f s) (hs : ∀ (s : State) (q : Seq), f { s with seq := q } = f s)
    (op : Op) (n : Nat) (ls : List Line) (s : State) : f (s.runFrom op n ls) = f s := by
  induction ls generalizing n s with
  | nil => exact hr s .ok
  | cons l ls ih =>
    rw [State.runFrom]
    split
    · exact hs s _
    · rw [ih, hp]
    · exact (hr _ _).trans (hp _ _ _ _)

@[simp] theorem State.runFrom_fb (op : Op) (n : Nat) (ls : List Line) (s : State) : (s.runFrom op n ls).fb = s.fb :=
  State.runFrom_keeps (fun t => t.fb) (by simp) (by simp) (by simp) op n ls s
@[simp] theorem State.runFrom_orient (op : Op) (n : Nat) (ls : List Line) (s : State) :
    (s.runFrom op n ls).orient = s.orient :=
  State.runFrom_keeps (fun t => t.orient) (by simp) (by simp) (by simp) op n ls s
@[simp] theorem State.runFrom_bias (op : Op) (n : Nat) (ls : List Line) (s : State) : (s.runFrom op n ls).bias = s.bias :=
  State.runFrom_keeps (fun t => t.bias) (by simp) (by simp) (by simp) op n ls s
@[simp] theorem State.runFrom_params (op : Op) (n : Nat) (ls : List Line) (s : State) :
    (s.runFrom op n ls).params = s.params :=
  State.runFrom_keeps (fun t => t.params) (by simp) (by simp) (by simp) op n ls s
@[simp] theorem State.runFrom_reqs (op : Op) (n : Nat) (ls : List Line) (s : State) : (s.runFrom op n ls).reqs = s.reqs :=
  State.runFrom_keeps (fun t => t.reqs) (by simp) (by simp) (by simp) op n ls s
@[simp] theorem State.runFrom_opx (op : Op) (n : Nat) (ls : List Line) (s : State) : (s.runFrom op n ls).opx = s.opx :=
  State.runFrom_keeps (fun t => t.opx) (by simp) (by simp) (by simp) op n ls s
@[simp] theorem State.runFrom_opy (op : Op) (n : Nat) (ls : List Line) (s : State) : (s.runFrom op n ls).opy = s.opy :=
  State.runFrom_keeps (fun t => t.opy) (by simp) (by simp) (by simp) op n ls s
@[simp] theorem State.runFrom_opv (op : Op) (n : Nat) (ls : List Line) (s : State) : (s.runFrom op n ls).opv = s.opv :=
  State.runFrom_keeps (fun t => t.opv) (by simp) (by simp) (by simp) op n ls s
@[simp] theorem State.runFrom_oplen (op : Op) (n : Nat) (ls : List Line) (s : State) :
    (s.runFrom op n ls).oplen = s.oplen :=
  State.runFrom_keeps (fun t => t.oplen) (by simp) (by simp) (by simp) op n ls s
@[simp] theorem State.runFrom_payload (op : Op) (n : Nat) (ls : List Line) (s : State) :
    (s.runFrom op n ls).payload = s.payload :=
  State.runFrom_keeps (fun t => t.payload) (by simp) (by simp) (by simp) op n ls s

end Sys2Proof.Machine
end

