-- ==== Sys2Proof/Laws/Exec.lean ====
section
/-! SUPPORT. What the shared operations around a meaning do, said once: accepting a request, the framebuffer accesses, the one
form of every operation with port events, and everything a step can do. -/

namespace Sys2Proof.Machine

theorem busy_eq_false_iff (s : State) : s.busy = false ↔ s.seq = .idle := by
  unfold State.busy
  split <;> simp_all

theorem busy_eq_true_iff (s : State) : s.busy = true ↔ ∃ op n p, s.seq = .busy op n p := by
  unfold State.busy
  split <;> simp_all

/-- An idle block accepts a well-formed operation and runs its body on the latched state. -/
theorem onAccept_idle {i : Instr} {s : State} (hs : s.seq = .idle) (hw : i.wf = true)
    (body : State → Host.Outcome State Fault Refusal) : onAccept i s body = body (s.latchOperands (encode i)) := by
  rw [onAccept, (busy_eq_false_iff s).2 hs, hw]

/-- Where an accepted operation answers a next state, the block was idle, the operation well formed, and its body answered. -/
theorem onAccept_next {i : Instr} {s t : State} {body : State → Host.Outcome State Fault Refusal}
    (h : onAccept i s body = .next t) :
    s.seq = .idle ∧ i.wf = true ∧ body (s.latchOperands (encode i)) = .next t := by
  unfold onAccept at h
  split at h
  · cases h
  · split at h
    · exact ⟨(busy_eq_false_iff s).1 ‹_›, ‹_›, h⟩
    · cases h

/-- An operation whose payload no request can spell is refused (R83, R86). -/
theorem onAccept_illFormed {i : Instr} {s : State} (hs : s.seq = .idle) (hw : i.wf = false)
    (body : State → Host.Outcome State Fault Refusal) : onAccept i s body = .refused .payloadLength := by
  rw [onAccept, (busy_eq_false_iff s).2 hs, hw]

/-- A busy block refuses every operation (R30, R86). -/
theorem onAccept_busy {i : Instr} {s : State} (hs : s.busy = true) (body : State → Host.Outcome State Fault Refusal) :
    onAccept i s body = .refused .requestWhileBusy := by rw [onAccept, hs]

theorem inBounds_iff (x y : Operand) : inBounds x y = true ↔ x.toNat < 128 ∧ y.toNat < 64 := by simp [inBounds]

theorem byteOffset_lt {x y : Operand} (h : inBounds x y = true) : byteOffset x y < 1024 := by
  have := (inBounds_iff x y).1 h
  simp only [byteOffset, pageOf]
  omega

/-- `WriteBit` inside the framebuffer: the one byte written with its one bit changed (R112). -/
theorem State.writeBit_ok (s : State) {a : Nat} (ha : a < 1024) (bit : Nat) (value : Bool) :
    s.writeBit a bit value = .ok (s.storeFb (Memory.write a (withBit (s.fbByte a) bit value) s.fb)) := by
  simp only [State.writeBit, State.memRead, if_pos (show a + 1 ≤ Config.fbLen from ha), Memory.readBytes, Except.bind,
    State.memWrite, List.map_cons, List.map_nil, List.length_singleton, Memory.writeBytes, State.fbByte]

/-- Bit `j` of a byte with bit `bit` written (R112). -/
theorem getLsbD_withBit (b : Byte) {bit : Nat} (hb : bit < 8) (v : Bool) (j : Nat) :
    (withBit b bit v).getLsbD j = if j = bit then v else b.getLsbD j := by
  by_cases hj : j < 8
  · cases v <;> simp [withBit, bitMask, hj] <;>
      (by_cases h : j = bit <;> simp_all; omega)
  · have h : j ≠ bit := by omega
    rw [if_neg h, BitVec.getLsbD_of_ge _ _ (by omega), BitVec.getLsbD_of_ge _ _ (by omega)]

/-- A `SET_PIXEL` on the screen, by what it stores (R110). -/
theorem execSetPixel_inBounds {s : State} (x y : Operand) (value : Bool) (hs : s.seq = .idle) (h : inBounds x y = true) :
    exec (.setPixel x y value) s =
      .next (((s.latchOperands (encode (.setPixel x y value))).storeFb
        (Memory.write (byteOffset x y) (withBit (s.fbByte (byteOffset x y)) (bitPosition y) value) s.fb)).respond .ok) := by
  rw [exec, execSetPixel, onAccept_idle hs rfl, State.setPixelBody]
  simp only [State.latchOperands_opx, State.latchOperands_opy, State.latchOperands_opv, encode, fieldA_requestWord,
    fieldB_requestWord, fieldV_requestWord, h, if_true]
  rw [State.writeBit_ok _ (byteOffset_lt h), Except.map, orFault]
  simp [State.fbByte]

/-- A `SET_PIXEL` off the screen (R111). -/
theorem execSetPixel_outOfBounds {s : State} (x y : Operand) (value : Bool) (hs : s.seq = .idle) (h : inBounds x y = false) :
    exec (.setPixel x y value) s =
      .next ((s.latchOperands (encode (.setPixel x y value))).respond .outOfBounds) := by
  rw [exec, execSetPixel, onAccept_idle hs rfl, State.setPixelBody]
  simp [encode, h, orFault]

/-- `MemWrite` inside the framebuffer. -/
theorem State.memWrite_ok (s : State) {a : Nat} {v : List Byte} (h : a + v.length ≤ 1024) :
    s.memWrite a v = .ok (s.storeFb (Memory.writeBytes a v s.fb)) := by
  rw [State.memWrite, if_pos h]

@[simp] theorem length_zeroBytes : zeroBytes.length = 1024 := List.length_replicate

/-- Every byte `CLEAR` writes is zero (R116). -/
@[simp] theorem getD_zeroBytes (k : Nat) : zeroBytes.getD k 0 = 0 := by
  rw [List.getD_eq_getElem?_getD, zeroBytes, List.getElem?_replicate]
  split <;> rfl

/-- `CLEAR`, by what it stores (R116). -/
theorem execClear_idle {s : State} (hs : s.seq = .idle) :
    exec .clear s =
      .next (((s.latchOperands (encode .clear)).storeFb (Memory.writeBytes 0 zeroBytes s.fb)).respond .ok) := by
  rw [exec, execClear, onAccept_idle hs rfl, State.memWrite_ok _ (by rw [length_zeroBytes]), Except.map, orFault,
    State.latchOperands_fb, State.returnOk_eq_respond]

/-- Every operation with port events runs its lines on the latched state. -/
theorem exec_portOp (i : Instr) (s : State) (h : 0 < i.op.events) :
    exec i s = onAccept i s fun l => .next (l.runFrom i.op 0 (l.script i.op)) := by
  cases i with
  | init => rfl
  | command _ => rfl
  | data _ => rfl
  | reset => rfl
  | backlight _ => rfl
  | clear => exact absurd h (Nat.lt_irrefl 0)
  | setPixel _ _ _ => exact absurd h (Nat.lt_irrefl 0)
  | showFb => rfl

/-- Every operation is a body run on acceptance. -/
theorem exec_is_onAccept (i : Instr) (s : State) : ∃ body, exec i s = onAccept i s body := by
  cases i with
  | init => exact ⟨_, by rw [exec, execInit]⟩
  | command _ => exact ⟨_, by rw [exec, execCommand]⟩
  | data _ => exact ⟨_, by rw [exec, execData]⟩
  | reset => exact ⟨_, by rw [exec, execReset]⟩
  | backlight _ => exact ⟨_, by rw [exec, execBacklight]⟩
  | clear => exact ⟨_, by rw [exec, execClear]⟩
  | setPixel _ _ _ => exact ⟨_, by rw [exec, execSetPixel]⟩
  | showFb => exact ⟨_, by rw [exec, execShow]⟩

/-- An operation that answers a next state found the block idle and was well formed. -/
theorem exec_accepts {i : Instr} {s t : State} (h : exec i s = .next t) : s.seq = .idle ∧ i.wf = true := by
  obtain ⟨body, hb⟩ := exec_is_onAccept i s
  rw [hb] at h
  exact ⟨(onAccept_next h).1, (onAccept_next h).2.1⟩

/-- Everything an operation that answers a next state can be. -/
theorem exec_cases {i : Instr} {s t : State} (h : exec i s = .next t) :
    s.seq = .idle ∧ i.wf = true ∧
    ((0 < i.op.events ∧ t = (s.latchOperands (encode i)).runFrom i.op 0 ((s.latchOperands (encode i)).script i.op)) ∨
     (∃ x y v, i = .setPixel x y v ∧ inBounds x y = true ∧
       t = ((s.latchOperands (encode i)).storeFb
         (Memory.write (byteOffset x y) (withBit (s.fbByte (byteOffset x y)) (bitPosition y) v) s.fb)).respond .ok) ∨
     (∃ x y v, i = .setPixel x y v ∧ inBounds x y = false ∧ t = (s.latchOperands (encode i)).respond .outOfBounds) ∨
     (i = .clear ∧ t = ((s.latchOperands (encode i)).storeFb
       (Memory.writeBytes 0 zeroBytes s.fb)).respond .ok)) := by
  by_cases hp : 0 < i.op.events
  · rw [exec_portOp i s hp] at h
    obtain ⟨hs, hw, h⟩ := onAccept_next h
    exact ⟨hs, hw, .inl ⟨hp, (Host.Outcome.next.inj h).symm⟩⟩
  · cases i with
    | setPixel x y v =>
      have hs := (exec_accepts h).1
      cases hb : inBounds x y with
      | true =>
        rw [execSetPixel_inBounds x y v hs hb] at h
        exact ⟨hs, rfl, .inr (.inl ⟨x, y, v, rfl, hb, (Host.Outcome.next.inj h).symm⟩)⟩
      | false =>
        rw [execSetPixel_outOfBounds x y v hs hb] at h
        exact ⟨hs, rfl, .inr (.inr (.inl ⟨x, y, v, rfl, hb, (Host.Outcome.next.inj h).symm⟩))⟩
    | clear =>
      have hs := (exec_accepts h).1
      rw [execClear_idle hs] at h
      exact ⟨hs, rfl, .inr (.inr (.inr ⟨rfl, (Host.Outcome.next.inj h).symm⟩))⟩
    | init => exact absurd (Nat.succ_pos _) hp
    | command _ => exact absurd (Nat.succ_pos _) hp
    | data _ => exact absurd (Nat.succ_pos _) hp
    | reset => exact absurd (Nat.succ_pos _) hp
    | backlight _ => exact absurd (Nat.succ_pos _) hp
    | showFb => exact absurd (Nat.succ_pos _) hp

/-- Everything a step that answers a next state can be. -/
theorem step_cases {s t : State} (h : step s = .next t) :
    (s.seq = .idle ∧ s.reqs = [] ∧ t = s) ∨
    (∃ r rs i, s.seq = .idle ∧ s.reqs = r :: rs ∧ decode r = .ok i ∧ exec i { s with reqs := rs } = .next t) ∨
    (∃ op n p, s.seq = .busy op n p ∧ s.validPosition op n p = true ∧ t = s.runFrom op n ((s.script op).drop n)) := by
  unfold step at h
  split at h
  · next hs =>
    unfold State.runNextRequest at h
    split at h
    · exact .inl ⟨hs, ‹_›, (Host.Outcome.next.inj h).symm⟩
    · split at h
      · exact .inr (.inl ⟨_, _, _, hs, ‹_›, ‹_›, h⟩)
      · cases h
  · next op n p hs =>
    unfold State.resume at h
    split at h
    · exact .inr (.inr ⟨op, n, p, hs, ‹_›, (Host.Outcome.next.inj h).symm⟩)
    · cases h

/-- The lines of an operation depend only on the parameters, the straps, the framebuffer, the payload and the value latch. -/
theorem State.script_congr {s t : State} (hp : t.params = s.params) (ho : t.orient = s.orient) (hb : t.bias = s.bias)
    (hf : t.fb = s.fb) (hl : t.payload = s.payload) (hv : t.opv = s.opv) (op : Op) : t.script op = s.script op := by
  have hi : t.initLine = s.initLine := by funext i; simp [State.initLine, hp, ho, hb]
  have hg : t.pageLines = s.pageLines := by funext p; simp [State.pageLines, State.pageSlice, hp, ho, hf]
  cases op <;>
    simp [State.script, State.initLines, State.commandLines, State.dataLines, State.backlightLines, State.showLines, hi, hg,
      hp, hl, hv]

/-- How many lines each operation has (R246). -/
theorem State.length_script (s : State) (op : Op) : (s.script op).length = op.events := by cases op <;> rfl

end Sys2Proof.Machine
end

