-- ==== Sys2Proof/Laws/PerInstr.lean ====
section
/-! SUPPORT. The per-instruction family `TableRow`: the word the encoder writes for an instruction is one the instruction's
row of R81 spells, and asks for exactly the payload the encoder writes beside it. -/

namespace Sys2Proof.Laws.TableRow

/-- The encoded word matches the instruction's row, carries its operation number, and asks for its payload (R81, R83). -/
def Statement (i : Instr) : Prop :=
  i.wf = true → i.op.spelledBy (encode i).word = true ∧ opOfNumber (fieldOp (encode i).word) = i.op ∧
    payloadBytes (encode i).word = (encode i).pay.length

theorem init : Statement .init := fun _ => by decide

theorem command (bytes : List Byte) : Statement (.command bytes) := by
  intro h
  have hlen : bytes.length ≤ 65535 := (atMost_iff bytes 65535).1 h
  refine ⟨?_, by simp [encode, opOfNumber, Op.number, Instr.op], ?_⟩
  · simp only [Op.spelledBy, beq_iff_eq, Instr.op, encode]
    apply BitVec.eq_of_getLsbD_eq
    intro i hi
    rw [BitVec.getLsbD_and, getLsbD_requestWord]
    interval_cases i <;> simp [Op.number, Op.mask, Op.pattern]
  · simp only [encode, payloadBytes, fieldOp_requestWord, fieldA_requestWord, BitVec.toNat_ofNat]
    exact Nat.mod_eq_of_lt (by omega)

theorem data (bytes : List Byte) : Statement (.data bytes) := by
  intro h
  have hlen : bytes.length ≤ 65535 := (atMost_iff bytes 65535).1 h
  refine ⟨?_, by simp [encode, opOfNumber, Op.number, Instr.op], ?_⟩
  · simp only [Op.spelledBy, beq_iff_eq, Instr.op, encode]
    apply BitVec.eq_of_getLsbD_eq
    intro i hi
    rw [BitVec.getLsbD_and, getLsbD_requestWord]
    interval_cases i <;> simp [Op.number, Op.mask, Op.pattern]
  · simp only [encode, payloadBytes, fieldOp_requestWord, fieldA_requestWord, BitVec.toNat_ofNat]
    exact Nat.mod_eq_of_lt (by omega)

theorem reset : Statement .reset := fun _ => by decide

theorem backlight (on : Bool) : Statement (.backlight on) := fun _ => by cases on <;> decide

theorem clear : Statement .clear := fun _ => by decide

theorem setPixel (x y : Operand) (value : Bool) : Statement (.setPixel x y value) := by
  refine fun _ => ⟨?_, by simp [encode, opOfNumber, Op.number, Instr.op], ?_⟩
  · simp only [Op.spelledBy, beq_iff_eq, Instr.op, encode]
    apply BitVec.eq_of_getLsbD_eq
    intro i hi
    rw [BitVec.getLsbD_and, getLsbD_requestWord]
    interval_cases i <;> simp [Op.number, Op.mask, Op.pattern]
  · simp only [encode, payloadBytes, fieldOp_requestWord]
    rfl

theorem showFb : Statement .showFb := fun _ => by decide

end Sys2Proof.Laws.TableRow
end

