-- ==== Sys2Proof/Laws/Script.lean ====
section
/-! SUPPORT. Running an operation's lines by their numbers: the state after the lines answered `ok` and after a failed one,
written out once, and each operation's lines as the events and lifecycle writes their step numbers say. -/

namespace Sys2Proof.Machine

/-- Performing a line neither reads nor writes the sequencer or the answers to come. -/
theorem State.perform_frame (s : State) (r : PortRequest) (a : Answer) (o : Option Lifecycle) (q : Seq)
    (as : List Answer) :
    (({ s with seq := q, answers := as } : State).perform r a).setLc o =
      { (s.perform r a).setLc o with seq := q, answers := as } := by
  rcases r with ⟨p, l⟩ | bs
  · cases p <;> cases o <;> rfl
  · cases a
    · obtain ⟨fb, orient, bias, lc, dc, rst, bl, opx, opy, opv, oplen, payload, seq, trace, rsp, responses, reqs, answers,
        params, sink, free⟩ := s
      cases dc <;> cases bs <;> cases o <;> rfl
    · cases o <;> rfl

/-- The next line has no answer yet (R213). -/
theorem State.runFrom_cons_nil {op : Op} {n : Nat} {l : Line} {ls : List Line} {s : State} (h : s.answers = []) :
    s.runFrom op n (l :: ls) = { s with seq := .busy op n (pageAt op n) } := by
  rw [State.runFrom]
  split
  · rfl
  · next h0 => rw [h] at h0; cases h0
  · next h0 => rw [h] at h0; cases h0

/-- The next line is answered `ok` (R32). -/
theorem State.runFrom_cons_ok {op : Op} {n : Nat} {l : Line} {ls : List Line} {s : State}
    {as : List Answer} (h : s.answers = .ok :: as) :
    s.runFrom op n (l :: ls) = ((s.takeAnswer.perform l.port .ok).setLc l.onOk).runFrom op (n + 1) ls := by
  rw [State.runFrom]
  split
  · next h0 => rw [h] at h0; cases h0
  · rfl
  · next h0 => rw [h] at h0; cases h0

/-- The next line is answered `fail` (R206). -/
theorem State.runFrom_cons_fail {op : Op} {n : Nat} {l : Line} {ls : List Line} {s : State}
    {as : List Answer} (h : s.answers = .fail :: as) :
    s.runFrom op n (l :: ls) = ((s.takeAnswer.perform l.port .fail).setLc l.onFail).raise l.port.error := by
  rw [State.runFrom]
  split
  · next h0 => rw [h] at h0; cases h0
  · next h0 => rw [h] at h0; cases h0
  · rfl

/-- What the answers to come can begin with. -/
theorem answers_head (as : List Answer) : as = [] ∨ (∃ bs, as = .ok :: bs) ∨ ∃ bs, as = .fail :: bs := by
  rcases as with _ | ⟨a, as⟩
  · exact .inl rfl
  · cases a <;> simp

/-- A run whose first lines are all answered `ok` goes on from the state after them. -/
theorem State.runFrom_append (op : Op) (n : Nat) (ls ls' : List Line) (s : State) (as : List Answer)
    (h : s.answers = List.replicate ls.length .ok ++ as) :
    s.runFrom op n (ls ++ ls') = (s.afterOk ls).runFrom op (n + ls.length) ls' := by
  induction ls generalizing n s with
  | nil => rfl
  | cons l ls ih =>
    rw [List.length_cons, List.replicate_succ, List.cons_append] at h
    rw [List.cons_append, State.runFrom_cons_ok h]
    rw [ih _ _ (by simp [h]), State.afterOk, List.length_cons, Nat.add_assoc n 1, Nat.add_comm 1]

/-- One event answered `ok` moves the sequencer (R32). -/
theorem State.sequencerStep_ok {s : State} {op : Op} {n : Nat} {p : Fin 8} {l : Line} {as : List Answer}
    (hs : s.seq = .busy op n p) (hl : (s.script op)[n]? = some l) (ha : s.answers = .ok :: as) :
    s.sequencerStep = ((s.takeAnswer.perform l.port .ok).setLc l.onOk).arriveAt op (n + 1) := by
  unfold State.sequencerStep
  split
  · next h => rw [hs] at h; cases h
  · next h =>
    rw [hs] at h; cases h
    split
    · next h => rw [hl] at h; cases h
    · next h =>
      rw [hl] at h; cases h
      split
      · next h => rw [ha] at h; cases h
      · rfl
      · next h => rw [ha] at h; cases h

/-- One event answered `fail` ends the operation (R32, R206). -/
theorem State.sequencerStep_fail {s : State} {op : Op} {n : Nat} {p : Fin 8} {l : Line} {as : List Answer}
    (hs : s.seq = .busy op n p) (hl : (s.script op)[n]? = some l) (ha : s.answers = .fail :: as) :
    s.sequencerStep = ((s.takeAnswer.perform l.port .fail).setLc l.onFail).raise l.port.error := by
  unfold State.sequencerStep
  split
  · next h => rw [hs] at h; cases h
  · next h =>
    rw [hs] at h; cases h
    split
    · next h => rw [hl] at h; cases h
    · next h =>
      rw [hl] at h; cases h
      split
      · next h => rw [ha] at h; cases h
      · next h => rw [ha] at h; cases h
      · rfl

/-- The latches after lines answered `ok`, by their events (R28). -/
theorem State.afterOk_latches (ls : List Line) (s : State) :
    (s.afterOk ls).dc = latchOf .dc s.dc (ls.map Line.okEvent) ∧ (s.afterOk ls).rst = latchOf .rst s.rst (ls.map Line.okEvent) ∧
    (s.afterOk ls).bl = latchOf .bl s.bl (ls.map Line.okEvent) := by
  induction ls generalizing s with
  | nil => exact ⟨rfl, rfl, rfl⟩
  | cons l ls ih =>
    obtain ⟨h1, h2, h3⟩ := ih ((s.takeAnswer.perform l.port .ok).setLc l.onOk)
    rw [State.afterOk, h1, h2, h3]
    rcases l with ⟨⟨p, lv⟩ | bs, a, b⟩
    · cases p <;> simp [State.perform, Line.okEvent, PortRequest.event, latchOf]
    · simp [State.perform, Line.okEvent, PortRequest.event, latchOf]

/-- Everything a failed line ends its operation with; the sink and its counter are left open (R206). -/
theorem State.afterFail_eq (l : Line) (s : State) : ∃ σ n, s.afterFail l = { s with
    lc := l.onFail.getD s.lc, dc := latchOf .dc s.dc [l.port.event .fail], rst := latchOf .rst s.rst [l.port.event .fail]
    bl := latchOf .bl s.bl [l.port.event .fail], trace := s.trace ++ [l.port.event .fail]
    rsp := l.port.error.word 0 0, responses := s.responses ++ [l.port.error.word 0 0], seq := .idle, answers := s.answers.tail
    sink := σ, free := n } := by
  rcases l with ⟨⟨p, lv⟩ | bs, a, b⟩
  · refine ⟨(State.afterFail ⟨.drive p lv, a, b⟩ s).sink, (State.afterFail ⟨.drive p lv, a, b⟩ s).free, ?_⟩
    cases p <;> cases b <;> rfl
  · refine ⟨(State.afterFail ⟨.send bs, a, b⟩ s).sink, (State.afterFail ⟨.send bs, a, b⟩ s).free, ?_⟩
    cases b <;> rfl

/-- Everything lines answered `ok` do; the sink and its counter are left open. -/
theorem State.afterOk_eq (ls : List Line) (s : State) : ∃ σ n, s.afterOk ls = { s with
    lc := ls.foldl (fun lc l => l.onOk.getD lc) s.lc
    dc := latchOf .dc s.dc (ls.map Line.okEvent), rst := latchOf .rst s.rst (ls.map Line.okEvent)
    bl := latchOf .bl s.bl (ls.map Line.okEvent), trace := s.trace ++ ls.map Line.okEvent
    answers := s.answers.drop ls.length, sink := σ, free := n } := by
  refine ⟨(s.afterOk ls).sink, (s.afterOk ls).free, ?_⟩
  obtain ⟨h1, h2, h3⟩ := State.afterOk_latches ls s
  rw [← h1, ← h2, ← h3, ← State.afterOk_lc, ← State.afterOk_trace, ← State.afterOk_answers]
  have := State.afterOk_fb ls s
  have := State.afterOk_orient ls s
  have := State.afterOk_bias ls s
  have := State.afterOk_opx ls s
  have := State.afterOk_opy ls s
  have := State.afterOk_opv ls s
  have := State.afterOk_oplen ls s
  have := State.afterOk_payload ls s
  have := State.afterOk_seq ls s
  have := State.afterOk_rsp ls s
  have := State.afterOk_responses ls s
  have := State.afterOk_reqs ls s
  have := State.afterOk_params ls s
  rcases hh : s.afterOk ls
  simp_all

/-- The latches over two runs of events. -/
theorem latchOf_append (p : Pin) (v : Latch) (a b : List Event) : latchOf p v (a ++ b) = latchOf p (latchOf p v a) b := by
  induction a generalizing v with
  | nil => rfl
  | cons e a ih => cases e <;> simp [latchOf, ih]

/-- The port events of every operation are the ones its step numbers say (R132 to R134, R154, R174, R190). -/
theorem State.script_ports (s : State) (op : Op) :
    (s.script op).map Line.port = (List.range op.events).map fun n => s.portStep op n := by cases op <;> rfl

/-- Line `n` of an operation asks for the port event its number says (R154, R174). -/
theorem State.script_step (s : State) (op : Op) (n : Nat) (h : n < op.events) :
    ∃ l, (s.script op)[n]? = some l ∧ l.port = s.portStep op n := by
  have key : ((s.script op).map Line.port)[n]? = some (s.portStep op n) := by
    rw [State.script_ports, List.getElem?_map, List.getElem?_range h]
    rfl
  rw [List.getElem?_map] at key
  cases hl : (s.script op)[n]? with
  | none => rw [hl] at key; cases key
  | some l => rw [hl] at key; exact ⟨l, rfl, by simpa using key⟩

/-- No line of `SHOW` writes the lifecycle register (R27). -/
theorem State.showLines_lc (s : State) (l : Line) (h : l ∈ s.showLines) : l.onOk = none ∧ l.onFail = none := by
  simp only [State.showLines, State.pageLines, sendCommand, sendData, List.mem_append, List.mem_flatMap, List.mem_cons,
    List.not_mem_nil, or_false] at h
  rcases h with (h | ⟨p, -, h⟩) | h
  · rcases h with rfl | rfl <;> exact ⟨rfl, rfl⟩
  · rcases h with ((h | h) | h) | h <;> rcases h with rfl | rfl <;> exact ⟨rfl, rfl⟩
  · rcases h with rfl | rfl <;> exact ⟨rfl, rfl⟩

/-- Lines that write no lifecycle leave it. -/
theorem foldl_onOk_none (ls : List Line) (h : ∀ l ∈ ls, l.onOk = none) (lc : Lifecycle) :
    ls.foldl (fun lc l => l.onOk.getD lc) lc = lc := by
  induction ls with
  | nil => rfl
  | cons l ls ih =>
    rw [List.foldl_cons, h l (by simp), Option.getD_none, ih fun l hl => h l (by simp [hl])]

/-- The first `k` lines answered `ok` leave the first `k` events. -/
theorem State.script_take_events (s : State) (op : Op) (k : Nat) (h : k ≤ op.events) :
    ((s.script op).take k).map Line.okEvent = s.okEvents op k := by
  induction k with
  | zero => rfl
  | succ k ih =>
    obtain ⟨l, hl, hp⟩ := State.script_step s op k (by omega)
    rw [List.take_add_one, hl, State.okEvents, List.range_succ, List.map_append, List.map_append, ih (by omega)]
    simp [State.okEvents, Line.okEvent, hp]

/-- What the first `k` lines make of the lifecycle register (R156, R193). -/
theorem State.script_lc (s : State) (op : Op) (k : Nat) (h : k ≤ op.events) (hk : 0 < op.events) (lc : Lifecycle) :
    ((s.script op).take k).foldl (fun lc l => l.onOk.getD lc) lc = lifecycleAfter op k false lc := by
  cases op with
  | init => simp only [Op.events] at h; interval_cases k <;> rfl
  | showFb => exact foldl_onOk_none _ (fun l hl => (s.showLines_lc l (List.mem_of_mem_take hl)).1) lc
  | command => simp only [Op.events] at h; interval_cases k <;> rfl
  | data => simp only [Op.events] at h; interval_cases k <;> rfl
  | reset => simp only [Op.events] at h; interval_cases k <;> rfl
  | backlight => simp only [Op.events] at h; interval_cases k <;> rfl
  | clear => exact absurd hk (Nat.not_lt_zero _)
  | setPixel => exact absurd hk (Nat.not_lt_zero _)

/-- What a failed line `k` makes of the lifecycle register (R156, R193). -/
theorem State.script_lcFail (s : State) (op : Op) (k : Nat) (h : k < op.events) (lc : Lifecycle) (l : Line)
    (hl : (s.script op)[k]? = some l) :
    l.onFail.getD (lifecycleAfter op k false lc) = lifecycleAfter op k true lc := by
  cases op with
  | init => simp only [Op.events] at h; interval_cases k <;> (cases hl; rfl)
  | showFb => rw [(s.showLines_lc l (List.mem_of_getElem? hl)).2]; rfl
  | command => simp only [Op.events] at h; interval_cases k <;> (cases hl; rfl)
  | data => simp only [Op.events] at h; interval_cases k <;> (cases hl; rfl)
  | reset => simp only [Op.events] at h; interval_cases k <;> (cases hl; rfl)
  | backlight => simp only [Op.events] at h; interval_cases k; cases hl; rfl
  | clear => exact absurd h (Nat.not_lt_zero _)
  | setPixel => exact absurd h (Nat.not_lt_zero _)

end Sys2Proof.Machine
end

