-- ==== Sys2Proof/Laws/Sink.lean ====
section
/-! SUPPORT. What reaches the sink and what it keeps: a command byte never touches the display RAM, and no operation changes
its size; what each command does to the pointers and the mode bit; and what the wait for a contrast argument depends on (R66). -/

namespace Sys2Proof.Machine

/-- Eight rows of `cols` bytes. -/
theorem Sink.sized_iff (c : Nat) (σ : Sink) : σ.sized c = true ↔ σ.ddram.length = 8 ∧ ∀ r ∈ σ.ddram, r.length = c := by
  simp [Sink.sized]

/-- A sink that holds one byte everywhere has the size of its rows. -/
theorem Sink.replicate_sized (cols : Nat) (b : Byte) (sp : BitVec 3) (sc : BitVec 8) (w r : Bool) :
    (Sink.mk (List.replicate 8 (List.replicate cols b)) sp sc w r).sized cols = true := by
  rw [Sink.sized_iff]
  exact ⟨List.length_replicate, fun row h => by rw [List.eq_of_mem_replicate h, List.length_replicate]⟩

/-- A command byte leaves the display RAM (R66). -/
theorem Sink.command_ddram (c : Params) (σ : Sink) (b : Byte) : (Sink.command c σ b).ddram = σ.ddram := by
  unfold Sink.command
  split
  · rfl
  · simp only [Sink.markRmw, Sink.selectColHigh, Sink.selectColLow, Sink.selectPage]
    (repeat' split) <;> rfl

/-- So do any number of them. -/
theorem Sink.foldl_command_ddram (c : Params) (bs : List Byte) (σ : Sink) :
    (bs.foldl (Sink.command c) σ).ddram = σ.ddram := by
  induction bs generalizing σ with
  | nil => rfl
  | cons b bs ih => rw [List.foldl_cons, ih, Sink.command_ddram]

/-- A data byte keeps the display RAM's size. -/
theorem Sink.data_sized (c : Params) (n : Nat) (σ : Sink) (b : Byte) (h : σ.sized n = true) :
    (Sink.data c σ b).sized n = true := by
  rw [Sink.sized_iff] at *
  unfold Sink.data
  simp only
  split
  · refine ⟨by simp [h.1], ?_⟩
    intro r hr
    rw [List.mem_iff_getElem?] at hr
    obtain ⟨i, hi⟩ := hr
    rw [List.getElem?_modify] at hi
    cases hh : σ.ddram[i]? with
    | none => rw [hh] at hi; simp at hi
    | some r' =>
      rw [hh] at hi
      have := h.2 r' (List.mem_of_getElem? hh)
      simp at hi
      split at hi <;> (subst hi; simpa using this)
  · exact h

/-- So do any number of them. -/
theorem Sink.foldl_data_sized (c : Params) (n : Nat) (bs : List Byte) (σ : Sink) (h : σ.sized n = true) :
    (bs.foldl (Sink.data c) σ).sized n = true := by
  induction bs generalizing σ with
  | nil => exact h
  | cons b bs ih => exact ih _ (Sink.data_sized c n σ b h)

/-- A disturbed sink has the size asked for. -/
theorem Sink.arbitrary_sized (σ : Sink) (cols n : Nat) : (σ.arbitrary cols n).sized cols = true := by
  rw [Sink.sized_iff]
  refine ⟨by simp [Sink.arbitrary], ?_⟩
  intro r hr
  simp [Sink.arbitrary] at hr
  obtain ⟨a, -, rfl⟩ := hr
  simp

/-- What a reset pulse leaves of the sink keeps its size. -/
theorem State.pulseSink_sized (s : State) : s.pulseSink.sink.sized s.params.sinkCols = true :=
  (Sink.sized_iff _ _).2 ((Sink.sized_iff _ _).1 (s.sink.arbitrary_sized _ s.free))

/-- Performing a line keeps the sink's size. -/
theorem State.perform_sized (s : State) (r : PortRequest) (a : Answer) (o : Option Lifecycle)
    (h : s.sink.sized s.params.sinkCols = true) :
    ((s.takeAnswer.perform r a).setLc o).sink.sized s.params.sinkCols = true := by
  have : ∀ (u : State), (u.setLc o).sink = u.sink := by intro u; cases o <;> rfl
  rw [this]
  rcases r with ⟨p, l⟩ | bs
  · cases p
    · exact h
    · exact s.takeAnswer.pulseSink_sized
    · exact h
  · cases a
    · simp only [State.perform, State.busWrite]
      show (s.takeAnswer.deliver bs).sink.sized s.params.sinkCols = true
      unfold State.deliver
      split
      · show (bs.foldl (Sink.command s.params) s.sink).sized _ = true
        rw [Sink.sized_iff, Sink.foldl_command_ddram, ← Sink.sized_iff]; exact h
      · exact Sink.foldl_data_sized _ _ _ _ h
      · split
        · exact h
        · exact Sink.arbitrary_sized _ _ _
    · exact h

/-! ### One command byte, pattern by pattern -/

/-- The index a search found is below the bound and meets the test. -/
theorem find_range_some {n k : Nat} {f : Nat → Bool} (h : (List.range n).find? f = some k) : k < n ∧ f k = true :=
  ⟨List.mem_range.1 (List.mem_of_find?_eq_some h), List.find?_some h⟩

/-- Where a search found nothing, no index below the bound meets the test. -/
theorem find_range_none {n : Nat} {f : Nat → Bool} (h : (List.range n).find? f = none) : ∀ k < n, f k = false := by
  intro k hk
  simpa using List.find?_eq_none.1 h k (List.mem_range.2 hk)

/-- A base with clear low bits tells the three-bit indices put into them apart. -/
theorem or_three_bits_injective (x : Byte) (hx : x &&& 0x07 = 0) :
    ∀ p < 8, ∀ q < 8, x ||| BitVec.ofNat 8 p = x ||| BitVec.ofNat 8 q → p = q := by
  revert x; decide +kernel

/-- So with four-bit indices. -/
theorem or_four_bits_injective (x : Byte) (hx : x &&& 0x0F = 0) :
    ∀ p < 16, ∀ q < 16, x ||| BitVec.ofNat 8 p = x ||| BitVec.ofNat 8 q → p = q := by
  revert x; decide +kernel

/-- Replacing a byte's low nibble keeps its high one. -/
theorem replace_low_nibble : ∀ y : Byte, ∀ n < 16,
    (((y &&& 0xF0) ||| BitVec.ofNat 8 n).extractLsb' 0 4).toNat = n ∧
    ((y &&& 0xF0) ||| BitVec.ofNat 8 n).extractLsb' 4 4 = y.extractLsb' 4 4 := by decide +kernel

/-- Replacing its high nibble keeps the low one. -/
theorem replace_high_nibble : ∀ y : Byte, ∀ n < 16,
    (((y &&& 0x0F) ||| (BitVec.ofNat 8 n <<< 4)).extractLsb' 4 4).toNat = n ∧
    ((y &&& 0x0F) ||| (BitVec.ofNat 8 n <<< 4)).extractLsb' 0 4 = y.extractLsb' 0 4 := by decide +kernel

/-- The page-select pattern moves the page pointer and nothing else (R66). -/
theorem Sink.selectPage_fields (c : Params) (b : Byte) (σ : Sink) :
    (σ.selectPage c b).sc = σ.sc ∧ (σ.selectPage c b).rmw = σ.rmw ∧
    (c.Legal → ∀ p < 8, b = c.pageBase ||| BitVec.ofNat 8 p → (σ.selectPage c b).sp.toNat = p) ∧
    ((∀ p < 8, b ≠ c.pageBase ||| BitVec.ofNat 8 p) → (σ.selectPage c b).sp = σ.sp) := by
  unfold Sink.selectPage
  split
  · next p h =>
    obtain ⟨hp, hb⟩ := find_range_some h
    rw [beq_iff_eq] at hb
    refine ⟨rfl, rfl, fun hl q hq hq' => ?_, fun hn => absurd hb (hn p hp)⟩
    obtain rfl := or_three_bits_injective _ hl.2 p hp q hq (hb.symm.trans hq')
    simp only [BitVec.toNat_ofNat]
    omega
  · next h =>
    refine ⟨rfl, rfl, fun _ q hq hb => ?_, fun _ => rfl⟩
    simpa [hb] using find_range_none h q hq

/-- The column-low pattern moves the column's low nibble and nothing else (R66). -/
theorem Sink.selectColLow_fields (c : Params) (b : Byte) (σ : Sink) :
    (σ.selectColLow c b).sp = σ.sp ∧ (σ.selectColLow c b).rmw = σ.rmw ∧
    (σ.selectColLow c b).sc.extractLsb' 4 4 = σ.sc.extractLsb' 4 4 ∧
    (∀ n < 16, b.toNat = c.colLowBase.toNat + n → ((σ.selectColLow c b).sc.extractLsb' 0 4).toNat = n) ∧
    ((∀ n < 16, b.toNat ≠ c.colLowBase.toNat + n) →
      (σ.selectColLow c b).sc.extractLsb' 0 4 = σ.sc.extractLsb' 0 4) := by
  unfold Sink.selectColLow
  split
  · next p h =>
    obtain ⟨hp, hb⟩ := find_range_some h
    rw [beq_iff_eq] at hb
    refine ⟨rfl, rfl, (replace_low_nibble _ p hp).2, fun n _ hn => ?_, fun hn => absurd hb (hn p hp)⟩
    obtain rfl : p = n := by omega
    exact (replace_low_nibble _ p hp).1
  · next h =>
    refine ⟨rfl, rfl, rfl, fun q hq hb => ?_, fun _ => rfl⟩
    simpa [hb] using find_range_none h q hq

/-- The column-high pattern moves the column's high nibble and nothing else (R66). -/
theorem Sink.selectColHigh_fields (c : Params) (b : Byte) (σ : Sink) :
    (σ.selectColHigh c b).sp = σ.sp ∧ (σ.selectColHigh c b).rmw = σ.rmw ∧
    (σ.selectColHigh c b).sc.extractLsb' 0 4 = σ.sc.extractLsb' 0 4 ∧
    (c.colHigh &&& 0x0F = 0 → ∀ n < 16, b = c.colHigh ||| BitVec.ofNat 8 n →
      ((σ.selectColHigh c b).sc.extractLsb' 4 4).toNat = n) ∧
    ((∀ n < 16, b ≠ c.colHigh ||| BitVec.ofNat 8 n) →
      (σ.selectColHigh c b).sc.extractLsb' 4 4 = σ.sc.extractLsb' 4 4) := by
  unfold Sink.selectColHigh
  split
  · next p h =>
    obtain ⟨hp, hb⟩ := find_range_some h
    rw [beq_iff_eq] at hb
    refine ⟨rfl, rfl, (replace_high_nibble _ p hp).2, fun hl n hn hn' => ?_, fun hn => absurd hb (hn p hp)⟩
    obtain rfl := or_four_bits_injective _ hl p hp n hn (hb.symm.trans hn')
    exact (replace_high_nibble _ p hp).1
  · next h =>
    refine ⟨rfl, rfl, rfl, fun _ q hq hb => ?_, fun _ => rfl⟩
    simpa [hb] using find_range_none h q hq

/-- The mode bit's command moves that bit and nothing else (R177; log entry 16). -/
theorem Sink.markRmw_fields (c : Params) (b : Byte) (σ : Sink) :
    (σ.markRmw c b).sp = σ.sp ∧ (σ.markRmw c b).sc = σ.sc ∧
    (σ.markRmw c b).rmw = if b = c.rmwEnter then true else if b = c.rmwExit then false else σ.rmw := by
  unfold Sink.markRmw
  split <;> (try split) <;> exact ⟨rfl, rfl, rfl⟩

/-! ### The wait for a contrast argument -/

/-- The wait over two streams, one after the other. -/
theorem contrastWait_append (c : Params) (w : Bool) (a b : List (Latch × Byte)) :
    contrastWait c w (a ++ b) = contrastWait c (contrastWait c w a) b := by
  induction a generalizing w with
  | nil => rfl
  | cons x a ih => exact ih _

/-- Command bytes move the wait as the stream of them, tagged low, says. -/
theorem Sink.foldl_command_awaitsArg (c : Params) (bs : List Byte) (σ : Sink) :
    (bs.foldl (Sink.command c) σ).awaitsArg = contrastWait c σ.awaitsArg (bs.map fun b => (.low, b)) := by
  induction bs generalizing σ with
  | nil => rfl
  | cons b bs ih =>
    rw [List.foldl_cons, ih, List.map_cons, contrastWait]
    congr 1
    unfold Sink.command
    cases h : σ.awaitsArg <;> simp [Bool.beq_eq_decide_eq]

/-- Data bytes move it as the stream of them, tagged high, says. -/
theorem Sink.foldl_data_awaitsArg (c : Params) (bs : List Byte) (σ : Sink) :
    (bs.foldl (Sink.data c) σ).awaitsArg = contrastWait c σ.awaitsArg (bs.map fun b => (.high, b)) := by
  induction bs generalizing σ with
  | nil => rfl
  | cons b bs ih =>
    rw [List.foldl_cons, ih, List.map_cons, contrastWait]
    congr 1

/-- One performed line moves the wait as the bytes of its event say, when a transfer finds a level on `DC` (R33, R66): no drive
and no failed transfer moves it. -/
theorem State.perform_awaitsArg (s : State) (r : PortRequest) (a : Answer) (o : Option Lifecycle)
    (h : ∀ bs, r = .send bs → s.dc ≠ .unknown) :
    ((s.takeAnswer.perform r a).setLc o).sink.awaitsArg =
      contrastWait s.params s.sink.awaitsArg (taggedStream s.dc [r.event a]) := by
  have hs : ∀ u : State, (u.setLc o).sink = u.sink := by intro u; cases o <;> rfl
  rw [hs]
  rcases r with ⟨p, l⟩ | bs
  · cases p <;> cases a <;> rfl
  · cases a
    · show (s.takeAnswer.deliver bs).sink.awaitsArg = _
      have hdc := h bs rfl
      unfold State.deliver
      change (match s.dc with | .low => _ | .high => _ | .unknown => _ : State).sink.awaitsArg = _
      cases hd : s.dc with
      | unknown => exact absurd hd hdc
      | low =>
        simp only [PortRequest.event, taggedStream, List.append_nil]
        exact Sink.foldl_command_awaitsArg _ _ _
      | high =>
        simp only [PortRequest.event, taggedStream, List.append_nil]
        exact Sink.foldl_data_awaitsArg _ _ _
    · rfl

/-- The tagged stream of two lists of events, one after the other (R33). -/
theorem taggedStream_append (dc : Latch) (a b : List Event) :
    taggedStream dc (a ++ b) = taggedStream dc a ++ taggedStream (latchOf .dc dc a) b := by
  induction a generalizing dc with
  | nil => rfl
  | cons e a ih =>
    rcases e with ⟨p, l, an⟩ | ⟨bs, an⟩
    · rw [List.cons_append, taggedStream, taggedStream, ih]; cases p <;> rfl
    · cases an
      · rw [List.cons_append, taggedStream, taggedStream, ih, List.append_assoc]; rfl
      · rw [List.cons_append, taggedStream, taggedStream, ih]; rfl

end Sys2Proof.Machine
end

