-- ==== Sys2Proof/Tests/Slice0.lean ====
section
/-! SUPPORT. The model's own tests. Every expected value is the spec's: the encoding examples of R94, the vectors of
spec/95_test_vectors.md (cited by section), the worked examples of the operation rules, or a few lines of hand arithmetic from
R80 and R84. Below them, one witness for each obligation that has hypotheses: a concrete state and operands that meet them
all. -/

namespace Sys2Proof.Tests

open Sys2Proof.Machine

/-! ### Helpers -/

/-- What a next state shows of itself, when the outcome is one. -/
def shown {α : Type} (f : State → α) : Host.Outcome State Fault Refusal → Option α
  | .next t => some (f t)
  | .fault _ => none
  | .refused _ => none

/-- An operation that ends `OK`, evaluated. -/
theorem ends_ok {o : Host.Outcome State Fault Refusal}
    (h : shown (fun t => decide (t.seq = .idle) && decide (rspStatus t.rsp = Status.ok.code)) o = some true) :
    ∃ t, o = .next t ∧ t.seq = .idle ∧ rspStatus t.rsp = Status.ok.code := by
  cases o with
  | next t => exact ⟨t, rfl, by simpa [shown] using h⟩
  | fault _ => cases h
  | refused _ => cases h

/-- The reset state with the answers the environment is going to give. -/
def answering (as : List Answer) : State := { State.reset with answers := as }

/-- The state of spec/95 Program 3: `LC = Displaying`, `DC = Low`, `RST = High`, with a framebuffer and answers given. -/
def displaying (m : List Host.Cell) (as : List Answer) : State :=
  { State.reset with fb := m, lc := .displaying, dc := .low, rst := .high, answers := as }

/-- `k` answers `ok`, then one `fail`. -/
def failingAt (k : Nat) : List Answer := List.replicate k .ok ++ [.fail]

/-- The framebuffer of R180: pixel (5, 10) on. -/
def onePixel : List Host.Cell := [(133, 0x04)]

/-- A reverse-orientation block with the framebuffer of R180. -/
def reversed (as : List Answer) : State := { displaying onePixel as with orient := .reverse, bias := .biasB }

/-- A sink whose display RAM holds `0x55` everywhere, at an odd place. -/
def usedSink : Sink := ⟨List.replicate 8 (List.replicate 132 0x55), 3, 77, false, false⟩

/-! ### WellFormed: each check with a term it refuses -/

theorem test_wf_refuses_long_command : (Instr.command (List.replicate 65536 0)).wf = false := by
  rw [Instr.wf, ← Bool.not_eq_true, atMost_iff, List.length_replicate]
  decide

theorem test_wf_refuses_long_data : (Instr.data (List.replicate 65536 0)).wf = false := by
  rw [Instr.wf, ← Bool.not_eq_true, atMost_iff, List.length_replicate]
  decide

theorem test_wf_accepts_longest_data : (Instr.data (List.replicate 65535 0)).wf = true := by
  rw [Instr.wf, atMost_iff, List.length_replicate]

theorem test_exec_refuses_ill_formed (bytes : List Byte) (h : (Instr.command bytes).wf = false) :
    exec (.command bytes) State.reset = .refused .payloadLength := by
  rw [exec, execCommand, onAccept_illFormed rfl h]

/-! ### Decoding: words written out from R80 and R81 (R94, 95 §2.3) -/

theorem test_decode_init : decode ⟨0b000000000000000000000000000000000000#36, []⟩ = .ok .init := by decide
theorem test_decode_init_v : decode ⟨0x000000008, []⟩ = .error .invalidWord := by decide
theorem test_decode_command : decode ⟨0b000000000000000000000000000000010001#36, [0xA6]⟩ = .ok (.command [0xA6]) := by decide
theorem test_decode_command_empty : decode ⟨0x000000001, []⟩ = .ok (.command []) := by decide
theorem test_decode_command_b : decode ⟨0x000100001, []⟩ = .error .invalidWord := by decide
theorem test_decode_command_v : decode ⟨0x000000019, [0xA6]⟩ = .error .invalidWord := by decide
theorem test_decode_command_short : decode ⟨0x000000021, [0x81]⟩ = .error .payloadLength := by decide
theorem test_decode_data : decode ⟨0x000000022, [0xFF, 0x00]⟩ = .ok (.data [0xFF, 0x00]) := by decide
theorem test_decode_data_excess : decode ⟨0x000000012, [0xFF, 0x00]⟩ = .error .payloadLength := by decide
theorem test_decode_data_len : payloadBytes 0x0000FFFF2 = 65535 := by decide
theorem test_decode_reset : decode ⟨0x000000003, []⟩ = .ok .reset := by decide
theorem test_decode_reset_a : decode ⟨0x000000013, []⟩ = .error .invalidWord := by decide
theorem test_decode_backlight_on : decode ⟨0x00000000C, []⟩ = .ok (.backlight true) := by decide
theorem test_decode_backlight_off : decode ⟨0x000000004, []⟩ = .ok (.backlight false) := by decide
theorem test_decode_backlight_a : decode ⟨0x00000001C, []⟩ = .error .invalidWord := by decide
theorem test_decode_clear : decode ⟨0x000000005, []⟩ = .ok .clear := by decide
theorem test_decode_clear_v : decode ⟨0x00000000D, []⟩ = .error .invalidWord := by decide
theorem test_decode_set_pixel :
    decode ⟨0b000000000000101000000000000001011110#36, []⟩ = .ok (.setPixel 5 10 true) := by decide
theorem test_decode_set_pixel_top : decode ⟨0xFFFFFFFFE, []⟩ = .ok (.setPixel 65535 65535 true) := by decide
theorem test_decode_show : decode ⟨0x000000007, []⟩ = .ok .showFb := by decide
theorem test_decode_show_v : decode ⟨0x00000000F, []⟩ = .error .invalidWord := by decide

theorem test_encode_set_pixel : (encode (.setPixel 127 63 false)).word = 0x003F007F6 := by decide
theorem test_encode_command : encode (.command [0x81, 0x20]) = ⟨0x000000021, [0x81, 0x20]⟩ := by decide

/-! ### A table row's bits, and the next instruction -/

theorem test_table_word_command : decodeTableWord 40 0x21 = some (.command [0, 0]) := by decide
theorem test_table_word_payload : decodeTableWord 48 0xA60000000011 = some (.command [0xA6]) := by decide
theorem test_table_word_bit_36 : decodeTableWord 40 0x1000000007 = none := by decide
theorem test_fetch_word_runs_set_pixel :
    shown (fun t => (t.fb, t.rsp, t.reqs)) (step (State.reset.withFetchWord 40 0x000A0005E)) = some ([(133, 0x04)], 0, []) := by
  decide
theorem test_fetch_word_runs_show :
    shown (fun t => t.seq) (step (State.reset.withFetchWord 40 0x000000007)) = some (.busy .showFb 0 0) := by decide

/-! ### SET_PIXEL and CLEAR (95 §2.1, §2.2, R119) -/

theorem test_set_pixel_off :
    shown State.fb (exec (.setPixel 3 20 false) { State.reset with fb := [(258, 0xFF), (259, 0xFF)] }) =
      some [(258, 0xFF), (259, 0xEF)] := by decide
theorem test_set_pixel_out_of_bounds :
    shown (fun t => (t.fb, t.rsp)) (exec (.setPixel 300 9 true) (displaying onePixel [])) =
      some (onePixel, 0x000480963) := by decide
theorem test_bit_write : withBit 0xA5 1 true = 0xA7 ∧ withBit 0xA5 0 false = 0xA4 ∧ withBit 0xFF 3 true = 0xFF := by decide
theorem test_translation : byteOffset 100 45 = 740 ∧ bitPosition 45 = 5 := by decide
theorem test_clear :
    shown (fun t => (t.fb, t.rsp, t.trace, t.lc)) (exec .clear (displaying [(0, 1), (1023, 0xFF)] [])) =
      some ([], 0, [], .displaying) := by decide +kernel

/-! ### COMMAND and DATA (95 §2.4) -/

theorem test_command_two_bytes :
    shown (fun t => (t.trace, t.rsp, t.dc, t.lc)) (exec (.command [0x81, 0x20]) (answering [.ok, .ok])) =
      some ([.pin .dc .low .ok, .bus [0x81, 0x20] .ok], 0, .low, .uninitialized) := by decide
theorem test_command_bus_error :
    shown (fun t => (t.trace, t.rsp, t.dc)) (exec (.command [0xA6]) (answering [.ok, .fail])) =
      some ([.pin .dc .low .ok, .bus [0xA6] .fail], 1, .low) := by decide
theorem test_data_empty :
    shown (fun t => (t.trace, t.rsp, t.dc)) (exec (.data []) (answering [.ok, .ok])) =
      some ([.pin .dc .high .ok, .bus [] .ok], 0, .high) := by decide
theorem test_data_pin_error :
    shown (fun t => (t.trace, t.rsp, t.dc)) (exec (.data [0x01]) (answering [.fail])) =
      some ([.pin .dc .high .fail], 2, .unknown) := by decide

/-! ### RESET and BACKLIGHT (95 §2.7) -/

theorem test_reset_succeeds :
    shown (fun t => (t.trace, t.rsp, t.rst, t.lc)) (exec .reset (displaying [] [.ok, .ok])) =
      some ([.pin .rst .low .ok, .pin .rst .high .ok], 0, .high, .reset) := by decide
theorem test_reset_second_drive_fails :
    shown (fun t => (t.trace, t.rsp, t.rst, t.lc)) (exec .reset (displaying [] [.ok, .fail])) =
      some ([.pin .rst .low .ok, .pin .rst .high .fail], 2, .unknown, .uninitialized) := by decide
theorem test_backlight_on :
    shown (fun t => (t.trace, t.rsp, t.bl)) (exec (.backlight true) (answering [.ok])) =
      some ([.pin .bl .high .ok], 0, .high) := by decide
theorem test_backlight_fails :
    shown (fun t => (t.trace, t.rsp, t.bl, t.lc)) (exec (.backlight false) (displaying [] [.fail])) =
      some ([.pin .bl .low .fail], 2, .unknown, .displaying) := by decide

/-! ### INIT (95 §2.5) -/

theorem test_init_bytes :
    (taggedStream .unknown (((exec .init (reversed (List.replicate 22 .ok))) |> shown State.trace).getD [])).map Prod.snd =
      [0xA2, 0xA1, 0xC0, 0xA6, 0x40, 0x2F, 0x23, 0xAF, 0x81, 0x3A] := by decide +kernel
theorem test_init_fails_at_15_and_16 :
    shown (fun t => (t.trace.length, t.rsp, t.lc, t.rst, t.dc)) (exec .init (answering (failingAt 15))) =
      some (16, 1, .reset, .high, .low) ∧
    shown (fun t => (t.trace.length, t.rsp, t.lc, t.rst, t.dc)) (exec .init (answering (failingAt 16))) =
      some (17, 2, .configured, .high, .unknown) := by decide +kernel

/-! ### SHOW (95 §2.6, Program 3, Program 4, R177, R180) -/

theorem test_show_commands :
    ((taggedStream .low (((exec .showFb (reversed (List.replicate 68 .ok))) |> shown State.trace).getD [])).filter
      fun b => b.1 = .low).map Prod.snd =
      [0xE0, 0xB0, 0x04, 0x10, 0xB1, 0x04, 0x10, 0xB2, 0x04, 0x10, 0xB3, 0x04, 0x10, 0xB4, 0x04, 0x10, 0xB5, 0x04, 0x10,
        0xB6, 0x04, 0x10, 0xB7, 0x04, 0x10, 0xEE] := by decide +kernel
theorem test_show_torn_frame :
    shown (fun t => ((t.trace.length, t.rsp, t.dc), t.sink.cell 0 0, t.sink.cell 2 0, t.sink.rmw))
      (exec .showFb { displaying [(0, 1), (256, 1), (384, 1)] (failingAt 25) with sink := usedSink }) =
      some ((26, 1, .high), some 1, some 0x55, true) := by decide +kernel

/-! ### The mirror over the sink model (95 Program 2, Program 4) -/

theorem test_show_mirrors_reverse :
    shown (fun t => (t.sink.cell 1 9, t.sink.cell 1 8, t.sink.cell 7 131, t.sink.cell 7 3, t.sink.rmw))
      (exec .showFb { reversed (List.replicate 68 .ok) with sink := { usedSink with awaitsArg := true } }) =
      some (some 4, some 0, some 0, some 0x55, false) := by decide +kernel
theorem test_contrast_argument_is_no_command :
    ([0x81, 0xB3, 0xB2] : List Byte).foldl (Sink.command Params.defaults) (Sink.blank 132) =
      { Sink.blank 132 with sp := 2 } := by decide
/-- R66: the pulse is no byte of the stream, so the byte after it is still the argument. -/
theorem test_argument_after_a_reset_pulse :
    let s := { State.reset with sink := { usedSink with awaitsArg := true } }.pulseSink
    (Sink.command Params.defaults s.sink 0xB2).sp = s.sink.sp ∧ (Sink.command Params.defaults s.sink 0xB2).awaitsArg = false :=
  ⟨rfl, rfl⟩
/-- R66, R12: `0xFE + 4` is 258, which no byte equals. -/
theorem test_column_low_sum_is_natural :
    (Sink.command { Params.defaults with colLowBase := 0xFE } usedSink 0x02).sc = 77 ∧
    (Sink.command { Params.defaults with colLowBase := 0xFE } usedSink 0xFF).sc = 65 := by decide

/-! ### Witnesses: for each obligation with hypotheses, concrete states and operands that meet them together -/

/-- A `SHOW` waiting for the answer to its first data transfer, about to send page 0. -/
def waitingShow : State :=
  { State.reset with seq := .busy .showFb 9 0, dc := .high, trace := [.pin .dc .high .ok] }

/-- An idle block with one request waiting. -/
def asked (r : Request) (as : List Answer) : State := { answering as with reqs := [r] }

theorem asked_inv (r : Request) (as : List Answer) : (asked r as).Inv where
  fb := rfl
  params := (by decide : Params.defaults.Legal)
  latches := rfl
  seq := fun _ _ _ h => by cases h
  trace := rfl
  rsp := fun _ h => by cases h
  responses := rfl
  sink := Sink.replicate_sized _ _ _ _ _ _

theorem waitingShow_seqOk : waitingShow.seqOk := by
  intro op step page h
  cases h
  exact ⟨by decide, by decide, fun _ _ => ⟨.high, by decide, by decide, rfl, rfl⟩⟩

theorem test_reset_inv : State.reset.Inv where
  fb := rfl
  params := by decide
  latches := rfl
  seq := fun _ _ _ h => by cases h
  trace := rfl
  rsp := fun _ h => by cases h
  responses := rfl
  sink := Sink.replicate_sized _ _ _ _ _ _

theorem waitingShow_inv : waitingShow.Inv where
  fb := rfl
  params := by decide
  latches := rfl
  seq := waitingShow_seqOk
  trace := rfl
  rsp := fun _ h => by cases h
  responses := rfl
  sink := Sink.replicate_sized _ _ _ _ _ _

theorem witness_DecodeOfEncodeIsTheInstruction :
    (Instr.setPixel 65535 65535 true).wf = true ∧ (Instr.command []).wf = true ∧
    (Instr.data (List.replicate 65535 0)).wf = true := ⟨rfl, rfl, test_wf_accepts_longest_data⟩
theorem witness_EncodeOfDecodeIsTheRequest : decode ⟨0x000000011, [0xA6]⟩ = .ok (.command [0xA6]) := by decide
theorem witness_WordsSpellAtMostOneRow :
    Op.setPixel.spelledBy 0xFFFFFFFFE = true ∧ decode ⟨0x000000007, []⟩ = .ok .showFb ∧
    decode ⟨0x00000000F, []⟩ = .error .invalidWord := by decide
theorem witness_PayloadMustBeFullySupplied :
    Op.data.spelledBy 0x000000012 = true ∧ Op.clear.spelledBy 0x000000005 = true := by decide
theorem witness_ShowAddressBytes : Params.defaults.Legal ∧ pageCmd Params.defaults 7 = 0xB7 := by decide
theorem witness_TranslationIsABijection :
    (127 : Operand).toNat ≤ 127 ∧ (63 : Operand).toNat ≤ 63 ∧ byteOffset 127 63 = 1023 ∧ bitPosition 63 = 7 := by decide
theorem witness_TranslationByBitSlices : (127 : Operand).toNat ≤ 127 ∧ (63 : Operand).toNat ≤ 63 := by decide
theorem witness_SetPixelWritesExactlyItsBit :
    (displaying onePixel []).seq = .idle ∧ Memory.wf (displaying onePixel []).fb = true ∧ (127 : Operand).toNat < 128 ∧
    (63 : Operand).toNat < 64 := by decide
theorem witness_SetPixelOutOfBoundsCarriesThePair :
    (displaying onePixel []).seq = .idle ∧ 128 ≤ (128 : Operand).toNat ∧ 64 ≤ (64 : Operand).toNat := by decide
theorem witness_LaterSetPixelWins : ∃ s t u r : State, s.seq = .idle ∧ Memory.wf s.fb = true ∧
    exec (.setPixel 127 63 true) s = .next t ∧ exec (.setPixel 127 63 false) t = .next u ∧
    exec (.setPixel 127 63 false) s = .next r := ⟨displaying onePixel [], _, _, _, rfl, rfl, rfl, rfl, rfl⟩
theorem witness_SetPixelsOnDifferentPixelsCommute : ∃ s t₁ u₁ t₂ u₂ : State, s.seq = .idle ∧ Memory.wf s.fb = true ∧
    ((5 : Operand) ≠ 5 ∨ (10 : Operand) ≠ 11) ∧
    exec (.setPixel 5 10 false) s = .next t₁ ∧ exec (.setPixel 5 11 true) t₁ = .next u₁ ∧
    exec (.setPixel 5 11 true) s = .next t₂ ∧ exec (.setPixel 5 10 false) t₂ = .next u₂ :=
  ⟨displaying onePixel [], _, _, _, _, rfl, rfl, by decide, rfl, rfl, rfl, rfl⟩
theorem witness_ClearZeroesTheWholeBuffer :
    (displaying onePixel []).seq = .idle ∧ Memory.wf (displaying onePixel []).fb = true := by decide
theorem witness_OnlySetPixelAndClearWriteTheFramebuffer : ∃ t u v : State,
    exec (.backlight true) (displaying onePixel [.fail]) = .next t ∧
    waitingShow.busy = true ∧ step waitingShow = .next u ∧
    exec (.setPixel 128 0 true) (displaying onePixel []) = .next v ∧ inBounds 128 0 = false :=
  ⟨_, _, _, rfl, rfl, rfl, rfl, rfl⟩
theorem witness_CommandSendsItsPayload :
    (answering [.ok, .ok]).seq = .idle ∧ ([] : List Byte).length ≤ 65535 ∧ (answering [.ok, .ok]).answers = .ok :: .ok :: [] ∧
    (answering [.fail]).answers = .fail :: [] ∧ (answering [.ok, .fail]).answers = .ok :: .fail :: [] := by decide
theorem witness_DataSendsItsPayload :
    (answering [.ok, .ok]).seq = .idle ∧ (List.replicate 65535 (0 : Byte)).length ≤ 65535 ∧
    (answering [.ok, .ok]).answers = .ok :: .ok :: [] ∧ (answering [.fail]).answers = .fail :: [] ∧
    (answering [.ok, .fail]).answers = .ok :: .fail :: [] :=
  ⟨rfl, by rw [List.length_replicate], rfl, rfl, rfl⟩
theorem witness_ResetPulsesTheResetPin :
    (displaying [] [.ok, .ok]).seq = .idle ∧ (displaying [] [.ok, .ok]).answers = .ok :: .ok :: [] ∧
    (displaying [] [.fail]).answers = .fail :: [] ∧ (displaying [] [.ok, .fail]).answers = .ok :: .fail :: [] := by decide
theorem witness_BacklightDrivesItsPin :
    (answering [.ok]).seq = .idle ∧ (answering [.ok]).answers = .ok :: [] ∧ (answering [.fail]).answers = .fail :: [] := by
  decide
theorem witness_InitSendsTheTenBytesAndDisplays :
    (reversed (List.replicate 22 .ok)).seq = .idle ∧
    (reversed (List.replicate 22 .ok)).answers = List.replicate 22 .ok ++ [] := by decide +kernel
theorem witness_InitStopsAtItsFirstFailure :
    ∀ k ∈ [0, 1, 2, 15, 16, 21], k < 22 ∧ (answering (failingAt k)).seq = .idle ∧
      (answering (failingAt k)).answers = List.replicate k .ok ++ .fail :: [] := by decide +kernel
theorem witness_DisplayingExactlyWhenInitAnswersOk : ∃ t u : State,
    exec .init (answering (List.replicate 22 .ok)) = .next t ∧ t.seq = .idle ∧
    exec .init (answering (failingAt 0)) = .next u ∧ u.seq = .idle := by
  obtain ⟨t, h1, h2, -⟩ := ends_ok (o := exec .init (answering (List.replicate 22 .ok))) (by decide +kernel)
  exact ⟨t, _, h1, h2, rfl, rfl⟩
theorem witness_ShowSendsEightPages :
    (reversed (List.replicate 68 .ok)).seq = .idle ∧
    (reversed (List.replicate 68 .ok)).answers = List.replicate 68 .ok ++ [] := by decide +kernel
theorem witness_ShowStopsAtItsFirstFailure :
    ∀ k ∈ [0, 1, 2, 9, 65, 66, 67], k < 68 ∧ (answering (failingAt k)).seq = .idle ∧
      (answering (failingAt k)).answers = List.replicate k .ok ++ .fail :: [] := by decide +kernel
theorem witness_ShowStreamsTheFramebufferInOrder : ∃ t : State,
    exec .showFb (reversed (List.replicate 68 .ok)) = .next t ∧ t.seq = .idle ∧ rspStatus t.rsp = Status.ok.code ∧
    t.trace = (reversed (List.replicate 68 .ok)).trace ++ t.trace := by
  obtain ⟨t, h1, h2, h3⟩ := ends_ok (o := exec .showFb (reversed (List.replicate 68 .ok))) (by decide +kernel)
  exact ⟨t, h1, h2, h3, rfl⟩
theorem witness_ShowMirrorsTheFramebuffer : ∃ t : State,
    Params.defaults.Legal ∧ Params.defaults.Readable ∧ 132 ≤ Params.defaults.sinkCols ∧
    (reversed (List.replicate 68 .ok)).params = Params.defaults ∧ usedSink.sized 132 = true ∧
    exec .showFb { reversed (List.replicate 68 .ok) with sink := usedSink } = .next t ∧ t.seq = .idle ∧
    rspStatus t.rsp = Status.ok.code := by
  obtain ⟨t, h⟩ := ends_ok (o := exec .showFb { reversed (List.replicate 68 .ok) with sink := usedSink }) (by decide +kernel)
  exact ⟨t, by decide, by decide, by decide, rfl, Sink.replicate_sized _ _ _ _ _ _, h⟩
theorem witness_FailedShowLeavesATornFrame :
    Params.defaults.Legal ∧ Params.defaults.Readable ∧ 132 ≤ Params.defaults.sinkCols ∧ usedSink.sized 132 = true ∧
    (reversed (failingAt 65)).params = Params.defaults ∧
    (∀ k ∈ [0, 1, 2, 9, 10, 65, 66, 67], k < 68 ∧ (reversed (failingAt k)).answers = List.replicate k .ok ++ .fail :: []) ∧
    ∃ t : State, exec .showFb { reversed (failingAt 65) with sink := usedSink } = .next t :=
  ⟨by decide, by decide, by decide, Sink.replicate_sized _ _ _ _ _ _, rfl, by decide +kernel, _, rfl⟩
theorem witness_SinkStoresDataAtItsPointers :
    usedSink.sized Params.defaults.sinkCols = true ∧ { usedSink with sc := 131 }.sized Params.defaults.sinkCols = true ∧
    { usedSink with sc := 132 }.sized Params.defaults.sinkCols = true :=
  ⟨Sink.replicate_sized _ _ _ _ _ _, Sink.replicate_sized _ _ _ _ _ _, Sink.replicate_sized _ _ _ _ _ _⟩
theorem witness_FirstFailureEndsTheOperation :
    (answering (failingAt 67)).seq = .idle ∧ Instr.showFb.wf = true ∧ 67 < Instr.showFb.op.events ∧
    (answering (failingAt 67)).answers = List.replicate 67 .ok ++ .fail :: [] ∧
    0 < (Instr.backlight true).op.events ∧ (answering (failingAt 0)).answers = List.replicate 0 .ok ++ .fail :: [] := by decide +kernel
theorem witness_UnansweredEventKeepsTheOperationBusy :
    ∀ k ∈ [0, 1, 2, 9, 10, 65, 66, 67], k < Instr.showFb.op.events ∧
      (answering (List.replicate k .ok)).seq = .idle ∧ (answering (List.replicate k .ok)).answers = List.replicate k .ok := by decide +kernel
theorem witness_WaitingBlockStaysAsItIs : waitingShow.seqOk ∧ waitingShow.Waits := ⟨waitingShow_seqOk, rfl, rfl⟩
theorem witness_LaterAnswersResumeTheOperation : ∃ t : State,
    exec (.command [0xA6]) { State.reset with answers := [.ok] } = .next t ∧ t.busy = true := ⟨_, rfl, rfl⟩
theorem witness_OperationIsTheSequencerEventByEvent : ∃ t : State,
    0 < (Instr.command [0xA6]).op.events ∧ exec (.command [0xA6]) (answering [.ok, .ok]) = .next t := ⟨_, by decide, rfl⟩
theorem witness_OneResponsePerRequest : ∃ t u : State,
    exec .reset (answering [.ok, .fail]) = .next t ∧ exec .reset (answering [.ok]) = .next u := ⟨_, _, rfl, rfl⟩
theorem witness_StatusOfEveryOperation : ∃ t u v w : State,
    exec .clear State.reset = .next t ∧ t.seq = .idle ∧
    exec (.command [0xA6]) (answering [.ok, .fail]) = .next u ∧ u.seq = .idle ∧
    exec (.backlight true) (answering [.fail]) = .next v ∧ v.seq = .idle ∧
    exec (.setPixel 127 64 true) State.reset = .next w ∧ w.seq = .idle := by
  refine ⟨_, _, _, _, execClear_idle rfl, ?_, rfl, rfl, rfl, rfl, rfl, rfl⟩
  simp
theorem witness_LifecycleGatesNothing : ∃ t : State, exec (.data [1]) (displaying [] [.ok, .ok]) = .next t := ⟨_, rfl⟩
theorem witness_OnlyInitAndResetWriteTheLifecycle : ∃ t u : State,
    (Instr.data [1]).op ≠ .init ∧ (Instr.data [1]).op ≠ .reset ∧ exec (.data [1]) (displaying [] [.fail]) = .next t ∧
    waitingShow.seq = .busy .showFb 9 0 ∧ step { waitingShow with answers := [.fail] } = .next u :=
  ⟨_, _, by decide, by decide, rfl, rfl, rfl⟩
theorem witness_PinsHaveTheirOwnOperations : ∃ t u : State,
    exec (.data [1]) (displaying [] [.ok, .ok]) = .next t ∧ (Instr.data [1]).op ≠ .backlight ∧
    waitingShow.seq = .busy .showFb 9 0 ∧ step { waitingShow with answers := [.ok, .ok] } = .next u :=
  ⟨_, _, rfl, by decide, rfl, rfl⟩
theorem witness_AcceptanceLoadsTheLatches : ∃ t u v : State,
    exec (.setPixel 300 9 true) State.reset = .next t ∧ exec (.backlight true) (answering [.ok]) = .next u ∧
    exec (.data [1, 2]) (answering []) = .next v := ⟨_, _, _, rfl, rfl, rfl⟩
theorem witness_StepRunsTheDecodedRequest :
    (asked ⟨0x000A0005E, []⟩ []).seq = .idle ∧ (asked ⟨0x000A0005E, []⟩ []).reqs = ⟨0x000A0005E, []⟩ :: [] ∧
    decode ⟨0x000A0005E, []⟩ = .ok (.setPixel 5 10 true) := by decide
theorem witness_RequestThatSpellsNothingIsRefused :
    (asked ⟨0x00000000F, []⟩ []).seq = .idle ∧ (asked ⟨0x00000000F, []⟩ []).reqs = ⟨0x00000000F, []⟩ :: [] ∧
    (∀ p : Op, p.spelledBy 0x00000000F = false) ∧
    (asked ⟨0x000000021, [1]⟩ []).reqs = ⟨0x000000021, [1]⟩ :: [] ∧ Op.command.spelledBy 0x000000021 = true ∧
    [(1 : Byte)].length ≠ payloadBytes 0x000000021 :=
  ⟨rfl, rfl, fun p => by cases p <;> decide, rfl, by decide, by decide⟩
theorem witness_RequestWhileBusyIsRefused : waitingShow.busy = true := by decide
theorem witness_IdleBlockWithoutRequestStays : State.reset.Final := ⟨rfl, rfl⟩
theorem witness_StrapsAndParametersAreForLife : ∃ t : State, step (asked ⟨0x000000000, []⟩ [.ok]) = .next t := ⟨_, rfl⟩
theorem witness_TraceOnlyGrows : ∃ t : State, step (asked ⟨0x000000003, []⟩ [.ok, .fail]) = .next t := ⟨_, rfl⟩
theorem witness_InvariantHoldsAtPowerOn :
    Params.defaults.Legal ∧ Memory.wf onePixel = true ∧ usedSink.sized Params.defaults.sinkCols = true :=
  ⟨by decide, rfl, Sink.replicate_sized _ _ _ _ _ _⟩
theorem witness_EveryStepKeepsTheInvariant : ∃ t u : State,
    (asked ⟨0x000A0005E, []⟩ []).Inv ∧ step (asked ⟨0x000A0005E, []⟩ []) = .next t ∧
    waitingShow.Inv ∧ step waitingShow = .next u := ⟨_, _, asked_inv _ _, rfl, waitingShow_inv, rfl⟩
theorem witness_NoStepFaults : waitingShow.Inv ∧ (asked ⟨0x000A0005E, []⟩ []).Inv := ⟨waitingShow_inv, asked_inv _ _⟩
theorem witness_DrawFollowsItsPolicy : State.reset.seq = .idle := rfl
theorem witness_CommandByteMovesTheSinkPointers :
    { usedSink with awaitsArg := true }.awaitsArg = true ∧ usedSink.awaitsArg = false ∧ Params.defaults.Legal ∧
    Params.defaults.colHigh &&& 0x0F = 0 ∧
    (0xB0 : Byte) = Params.defaults.pageBase ||| BitVec.ofNat 8 0 ∧ (0xB7 : Byte) = Params.defaults.pageBase ||| BitVec.ofNat 8 7 ∧
    (0x00 : Byte).toNat = Params.defaults.colLowBase.toNat + 0 ∧ (0x0F : Byte).toNat = Params.defaults.colLowBase.toNat + 15 ∧
    (0x10 : Byte) = Params.defaults.colHigh ||| BitVec.ofNat 8 0 ∧ (0x1F : Byte) = Params.defaults.colHigh ||| BitVec.ofNat 8 15 ∧
    (∀ p < 8, (0x81 : Byte) ≠ Params.defaults.pageBase ||| BitVec.ofNat 8 p) ∧
    (∀ n < 16, (0x81 : Byte).toNat ≠ Params.defaults.colLowBase.toNat + n) ∧
    (∀ n < 16, (0x81 : Byte) ≠ Params.defaults.colHigh ||| BitVec.ofNat 8 n) ∧
    (0xE0 : Byte) = Params.defaults.rmwEnter ∧ (0xEE : Byte) = Params.defaults.rmwExit ∧ (0xEE : Byte) ≠ Params.defaults.rmwEnter := by
  decide
theorem witness_ShowBracketsTheReadModifyWriteMode :
    Params.defaults.rmwEnter ≠ Params.defaults.rmwExit ∧ (∀ p < 8, Params.defaults.rmwExit ≠ pageCmd Params.defaults p) ∧
    Params.defaults.rmwExit ≠ colLowCmd Params.defaults .reverse ∧ Params.defaults.rmwExit ≠ colHighCmd Params.defaults ∧
    (reversed []).sink.awaitsArg = false ∧ (reversed []).params = Params.defaults ∧
    (∀ k ∈ [0, 1, 2, 66, 67], k < 68 ∧ (reversed (failingAt k)).answers = List.replicate k .ok ++ .fail :: []) ∧
    (∃ t : State, exec .showFb (reversed (failingAt 1)) = .next t) ∧ (∃ t : State, exec .showFb (reversed (failingAt 2)) = .next t) ∧
    (∃ t : State, exec .showFb (reversed (failingAt 67)) = .next t) ∧
    ∃ t : State, exec .showFb (reversed (List.replicate 68 .ok)) = .next t ∧ t.seq = .idle ∧ rspStatus t.rsp = Status.ok.code :=
  ⟨by decide, by decide, by decide, by decide, rfl, rfl, by decide +kernel, ⟨_, rfl⟩, ⟨_, rfl⟩, ⟨_, rfl⟩,
    ends_ok (o := exec .showFb (reversed (List.replicate 68 .ok))) (by decide +kernel)⟩
theorem witness_ContrastArgumentFollowsTheByteStream : ∃ t u : State,
    exec (.command [0x81]) (answering [.ok, .ok]) = .next t ∧ t.trace = (answering []).trace ++ t.trace ∧
    waitingShow.Inv ∧ waitingShow.busy = true ∧ step waitingShow = .next u ∧ u.trace = waitingShow.trace ++ [] :=
  ⟨_, _, rfl, rfl, waitingShow_inv, rfl, rfl, rfl⟩

end Sys2Proof.Tests
end

section
/-! SUPPORT. The layer over `Sys2Proof/Laws` that the statements about the state and its steps share: what an operation's
lines look like by number, one induction principle for a run, and the frames of a run. -/

namespace Sys2Proof.Machine

/-! ### Lines by number -/

theorem events_le (op : Op) : op.events ≤ 68 := by cases op <;> decide

/-- The request at step `n` of an operation is the one its number says, and there is none from `op.events` on. -/
theorem State.script_port (s : State) (op : Op) (n : Nat) :
    (s.script op)[n]?.map Line.port = if n < op.events then some (s.portStep op n) else none := by
  rw [← List.getElem?_map, State.script_ports, List.getElem?_map]
  split
  · next h => rw [List.getElem?_range h]; rfl
  · next h => rw [List.getElem?_eq_none (by simpa using h)]; rfl

theorem State.script_port_of_getElem {s : State} {op : Op} {n : Nat} {l : Line} (h : (s.script op)[n]? = some l) :
    n < op.events ∧ l.port = s.portStep op n := by
  have hp := s.script_port op n
  rw [h] at hp
  split at hp
  · exact ⟨‹_›, Option.some.inj hp⟩
  · cases hp

/-- The first step of an operation with port events drives a pin. -/
theorem State.portStep_zero_ne_send (s : State) (op : Op) (h : 0 < op.events) (bytes : List Byte) :
    s.portStep op 0 ≠ .send bytes := by
  cases op with
  | clear => exact absurd h (Nat.lt_irrefl 0)
  | setPixel => exact absurd h (Nat.lt_irrefl 0)
  | _ => rintro ⟨⟩

/-- Even steps of `SHOW` drive `DC` (R174). -/
theorem showStep_even (s : State) (n : Nat) (h : n % 2 = 0) : ∃ l, showStep s n = .drive .dc l := by
  have h1 : n ≠ 1 := by omega
  have h67 : n ≠ 67 := by omega
  have hpage : ∀ k, k % 2 = 1 → (n - 2) % 8 ≠ k := by omega
  simp only [showStep, h1, h67, hpage 1 rfl, hpage 3 rfl, hpage 5 rfl, hpage 7 rfl, if_false]
  split_ifs <;> exact ⟨_, rfl⟩

/-- So a transfer of `SHOW` stands at an odd step (R174). -/
theorem showStep_send_odd (s : State) (n : Nat) (bytes : List Byte) (h : showStep s n = .send bytes) : n % 2 = 1 := by
  by_contra hn
  obtain ⟨l, hl⟩ := showStep_even s n (by omega)
  rw [hl] at h
  cases h

/-- The step before a transfer drives `DC` (R132, R133, R138). -/
theorem State.portStep_before_send {s : State} {op : Op} {n : Nat} {bytes : List Byte} (hn : n + 1 < op.events)
    (h : s.portStep op (n + 1) = .send bytes) : ∃ l, s.portStep op n = .drive .dc l := by
  cases op with
  | init =>
    simp only [State.portStep, initStep] at h ⊢
    split at h
    · cases h
    · split at h
      · cases h
      · split at h
        · cases h
        · exact ⟨.low, by rw [if_neg (by omega), if_neg (by omega), if_pos (by omega)]⟩
  | command | data =>
    obtain rfl : n = 0 := by simp only [Op.events] at hn; omega
    exact ⟨_, rfl⟩
  | reset => simp [State.portStep] at h
  | backlight => cases h
  | clear => exact absurd hn (Nat.not_lt_zero _)
  | setPixel => exact absurd hn (Nat.not_lt_zero _)
  | showFb =>
    have hodd := showStep_send_odd s (n + 1) bytes h
    exact showStep_even s n (by omega)

/-- No line of an operation other than `INIT` and `RESET` writes the lifecycle register (R27). -/
theorem State.script_line_lc {s : State} {op : Op} (hi : op ≠ .init) (hr : op ≠ .reset) {n : Nat} {l : Line}
    (h : (s.script op)[n]? = some l) : l.onOk = none ∧ l.onFail = none := by
  have hm := List.mem_of_getElem? h
  cases op with
  | init => exact absurd rfl hi
  | reset => exact absurd rfl hr
  | showFb => exact s.showLines_lc l hm
  | command | data => rcases List.mem_pair.1 hm with rfl | rfl <;> exact ⟨rfl, rfl⟩
  | backlight => obtain rfl := List.mem_singleton.1 hm; exact ⟨rfl, rfl⟩
  | clear | setPixel => cases hm

/-! ### One induction for every run -/

/-- Lines answered `ok` leave what the script is made of. -/
@[simp] theorem State.script_afterOk (ls : List Line) (s : State) (op : Op) : (s.afterOk ls).script op = s.script op :=
  State.script_congr (by simp) (by simp) (by simp) (by simp) (by simp) (by simp) op

/-- To show `Q` of where a run of an operation's lines from line `n` on ends or waits, give a property `P` of the state before
each line: it holds at line `n`, a line answered `ok` carries it to the next, and it gives `Q` at a line answered `fail`, at
a line without an answer, and after the last line (R32). -/
theorem State.runFrom_rule {op : Op} (P : Nat → State → Prop) (Q : State → Prop)
    (hok : ∀ n l (u : State) as, (u.script op)[n]? = some l → u.answers = .ok :: as → P n u → P (n + 1) (u.afterOk [l]))
    (hfail : ∀ n l (u : State) as, (u.script op)[n]? = some l → u.answers = .fail :: as → P n u → Q (u.afterFail l))
    (hwait : ∀ n (u : State), n < op.events → u.answers = [] → P n u → Q (u.waiting op n))
    (hend : ∀ u, P op.events u → Q (u.respond .ok))
    {n : Nat} {s : State} (hn : n ≤ op.events) (h : P n s) : Q (s.runFrom op n ((s.script op).drop n)) := by
  generalize hls : (s.script op).drop n = ls
  induction ls generalizing n s with
  | nil =>
    have hlen : op.events ≤ n := by rw [← s.length_script op]; exact List.drop_eq_nil_iff.1 hls
    obtain rfl : n = op.events := by omega
    exact hend s h
  | cons l ls ih =>
    have hl : (s.script op)[n]? = some l := by
      have := congrArg (·[0]?) hls
      simpa using this
    have hn' : n < op.events := (State.script_port_of_getElem hl).1
    rcases answers_head s.answers with ha | ⟨as, ha⟩ | ⟨as, ha⟩
    · rw [State.runFrom_cons_nil ha]
      exact hwait n s hn' ha h
    · rw [State.runFrom_cons_ok ha]
      refine ih (s := s.afterOk [l]) hn' (hok n l s as hl ha h) ?_
      rw [State.script_afterOk, ← List.tail_drop, hls, List.tail_cons]
    · rw [State.runFrom_cons_fail ha]
      exact hfail n l s as hl ha h

/-! ### Frames of a run: the sequencer's position, the answers behind, and the lifecycle register -/

/-- Lines answered `ok` neither read nor write the sequencer, nor the answers behind their own. -/
theorem State.afterOk_frame (ls : List Line) (s : State) (q : Seq) (as : List Answer) :
    ({ s with seq := q, answers := as } : State).afterOk ls =
      { s.afterOk ls with seq := q, answers := as.drop ls.length } := by
  induction ls generalizing s as with
  | nil => rfl
  | cons l ls ih =>
    have hstep : (({ s with seq := q, answers := as } : State).takeAnswer.perform l.port .ok).setLc l.onOk =
        { (s.takeAnswer.perform l.port .ok).setLc l.onOk with seq := q, answers := as.tail } :=
      State.perform_frame s.takeAnswer l.port .ok l.onOk q as.tail
    rw [State.afterOk, hstep, ih, List.length_cons, ← List.drop_tail]
    rfl

/-- Lines answered `ok` neither read nor write the sequencer. -/
theorem State.afterOk_seqFrame (ls : List Line) (s : State) (q : Seq) :
    ({ s with seq := q } : State).afterOk ls = { s.afterOk ls with seq := q } :=
  (State.afterOk_frame ls s q s.answers).trans (by rw [← State.afterOk_answers])

/-- A failed line ends its operation from any position of the sequencer alike. -/
theorem State.afterFail_seqFrame (l : Line) (s : State) (q : Seq) :
    ({ s with seq := q } : State).afterFail l = s.afterFail l := by
  have h := State.perform_frame s.takeAnswer l.port .fail l.onFail q s.answers.tail
  calc ({ s with seq := q } : State).afterFail l
      = ({ (s.takeAnswer.perform l.port .fail).setLc l.onFail with seq := q, answers := s.answers.tail } : State).raise
          l.port.error := congrArg (State.raise l.port.error) h
    _ = s.afterFail l := by
      rw [← State.takeAnswer_answers, ← State.perform_answers l.port .fail, ← State.setLc_answers l.onFail]
      rfl

/-- A run does not read the sequencer: it writes it. -/
theorem State.runFrom_seq (op : Op) (n : Nat) (ls : List Line) (s : State) (q : Seq) :
    ({ s with seq := q } : State).runFrom op n ls = s.runFrom op n ls := by
  induction ls generalizing n s with
  | nil => rfl
  | cons l ls ih =>
    rcases answers_head s.answers with ha | ⟨as, ha⟩ | ⟨as, ha⟩
    · rw [State.runFrom_cons_nil ha, State.runFrom_cons_nil (s := { s with seq := q }) ha]
    · rw [State.runFrom_cons_ok ha, State.runFrom_cons_ok (s := { s with seq := q }) ha]
      show State.runFrom op (n + 1) ls (({ s with seq := q } : State).afterOk [l]) = (s.afterOk [l]).runFrom op (n + 1) ls
      rw [State.afterOk_seqFrame, ih]
    · rw [State.runFrom_cons_fail ha, State.runFrom_cons_fail (s := { s with seq := q }) ha]
      exact State.afterFail_seqFrame l s q

/-- A performed line neither reads nor writes the lifecycle register, but for its own write of it. -/
theorem State.perform_lcFrame (s : State) (r : PortRequest) (a : Answer) (o : Option Lifecycle) (lc : Lifecycle) :
    (({ s with lc := lc } : State).perform r a).setLc o = { (s.perform r a).setLc o with lc := o.getD lc } := by
  rcases r with ⟨p, l⟩ | bs
  · cases p <;> cases o <;> rfl
  · cases a
    · obtain ⟨fb, orient, bias, _, dc, rst, bl, opx, opy, opv, oplen, payload, seq, trace, rsp, responses, reqs, answers,
        params, sink, free⟩ := s
      cases dc <;> cases bs <;> cases o <;> rfl
    · cases o <;> rfl

/-- From another lifecycle a run gives the same state but for the lifecycle (R26). -/
theorem State.runFrom_lcFrame (op : Op) (n : Nat) (ls : List Line) (s : State) (lc : Lifecycle) :
    ∃ lc', ({ s with lc := lc } : State).runFrom op n ls = { s.runFrom op n ls with lc := lc' } := by
  induction ls generalizing n s lc with
  | nil => exact ⟨lc, rfl⟩
  | cons l ls ih =>
    rcases answers_head s.answers with ha | ⟨as, ha⟩ | ⟨as, ha⟩
    · rw [State.runFrom_cons_nil ha, State.runFrom_cons_nil (s := { s with lc := lc }) ha]
      exact ⟨lc, rfl⟩
    · have hl := State.perform_lcFrame s.takeAnswer l.port .ok l.onOk lc
      rw [State.runFrom_cons_ok ha, State.runFrom_cons_ok (s := { s with lc := lc }) ha]
      exact hl ▸ ih (n + 1) _ _
    · have hl := State.perform_lcFrame s.takeAnswer l.port .fail l.onFail lc
      rw [State.runFrom_cons_fail ha, State.runFrom_cons_fail (s := { s with lc := lc }) ha]
      exact ⟨_, congrArg (State.raise l.port.error) hl⟩

end Sys2Proof.Machine
end

section
/-! SUPPORT. The invariant along a run: all of it but the sequencer's clause is kept by every update, and the readiness for a
transfer passes from each line to the next. -/

namespace Sys2Proof.Machine

/-! ### Framing of the trace -/

theorem framedFrom_append_pin (ready : Bool) (es : List Event) (p : Pin) (l : Level) (a : Answer) :
    framedFrom ready (es ++ [.pin p l a]) = framedFrom ready es := by
  induction es generalizing ready with
  | nil => rfl
  | cons e es ih => cases e <;> simp [framedFrom, ih]

/-- A transfer right after an answered `DC` drive is framed (R138). -/
theorem framedFrom_append_bus {ready : Bool} {es : List Event} {l : Level} (h : es.getLast? = some (.pin .dc l .ok))
    (bytes : List Byte) (a : Answer) : framedFrom ready (es ++ [.bus bytes a]) = framedFrom ready es := by
  obtain ⟨es, rfl⟩ := List.getLast?_eq_some_iff.1 h
  clear h
  induction es generalizing ready with
  | nil => simp [framedFrom]
  | cons e es ih => cases e <;> simp only [List.cons_append, framedFrom, ih]

/-! ### Response words -/

@[simp] theorem rspStatus_responseWord (st : BitVec 3) (ex ey : Operand) : rspStatus (responseWord st ex ey) = st := by
  apply BitVec.eq_of_getLsbD_eq
  intro i hi
  rw [rspStatus, BitVec.getLsbD_extractLsb', Nat.zero_add, responseWord]
  exact (congrArg (decide (i < 3) && ·) (BitVec.getLsbD_append (x := ey ++ ex) (y := st) (i := i))).trans (by simp [hi])

/-- Every word an operation ends with is one R84 and R85 allow. -/
theorem properResponse_word (st : Status) (x y : Operand) : properResponse (st.word x y) = true := by
  cases st with
  | ok => exact (by decide : properResponse (responseWord Status.ok.code 0 0) = true)
  | busError => exact (by decide : properResponse (responseWord Status.busError.code 0 0) = true)
  | pinError => exact (by decide : properResponse (responseWord Status.pinError.code 0 0) = true)
  | outOfBounds =>
    have hst : rspStatus (Status.outOfBounds.word x y) = Status.outOfBounds.code := rspStatus_responseWord _ x y
    rw [properResponse, hst]
    rfl

/-! ### The invariant but for the sequencer -/

/-- Every clause of the invariant but the sequencer's. -/
def State.InvButSeq (s : State) : Prop := ({ s with seq := .idle } : State).Inv

theorem State.seqOk_of_idle {s : State} (h : s.seq = .idle) : s.seqOk := by
  intro op n p hb
  rw [h] at hb
  cases hb

theorem State.inv_iff (s : State) : s.Inv ↔ s.InvButSeq ∧ s.seqOk :=
  ⟨fun h => ⟨⟨h.fb, h.params, h.latches, State.seqOk_of_idle rfl, h.trace, h.rsp, h.responses, h.sink⟩, h.seq⟩,
   fun ⟨h, hq⟩ => ⟨h.fb, h.params, h.latches, hq, h.trace, h.rsp, h.responses, h.sink⟩⟩

theorem State.inv_of_idle {s : State} (h : s.InvButSeq) (hs : s.seq = .idle) : s.Inv :=
  (State.inv_iff s).2 ⟨h, State.seqOk_of_idle hs⟩

/-- The end of an operation keeps it (R84, R206). -/
theorem State.respond_inv {s : State} (h : s.InvButSeq) (st : Status) : (s.respond st).Inv where
  fb := h.fb
  params := h.params
  latches := h.latches
  seq := State.seqOk_of_idle rfl
  trace := h.trace
  rsp := by simp
  responses := by
    rw [State.respond_responses, List.all_append, Bool.and_eq_true]
    exact ⟨h.responses, by simp [properResponse_word]⟩
  sink := h.sink

/-- Taking a request loads `OPX` and `OPLEN` alike (R82). -/
theorem State.latchOperands_invButSeq {s : State} (h : s.InvButSeq) (r : Request) : (s.latchOperands r).InvButSeq :=
  ⟨h.fb, h.params, rfl, State.seqOk_of_idle rfl, h.trace, h.rsp, h.responses, h.sink⟩

theorem State.storeFb_invButSeq {s : State} (h : s.InvButSeq) {m : List Host.Cell} (hm : Memory.wf m = true) :
    (s.storeFb m).InvButSeq :=
  ⟨hm, h.params, h.latches, State.seqOk_of_idle rfl, h.trace, h.rsp, h.responses, h.sink⟩

/-- A performed line keeps it, a transfer when a `DC` drive was just answered (R138). -/
theorem State.perform_invButSeq {s : State} (h : s.InvButSeq) (r : PortRequest) (a : Answer) (o : Option Lifecycle)
    (hr : ∀ bytes, r = .send bytes → ∃ l, s.trace.getLast? = some (.pin .dc l .ok)) :
    ((s.takeAnswer.perform r a).setLc o).InvButSeq where
  fb := by simpa using h.fb
  params := by simpa using h.params
  latches := by simpa using h.latches
  seq := State.seqOk_of_idle rfl
  trace := by
    have ht : framedFrom false s.trace = true := h.trace
    cases r with
    | drive p l => simpa [PortRequest.event, framedFrom_append_pin] using ht
    | send bytes =>
      obtain ⟨l, hl⟩ := hr bytes rfl
      simpa [PortRequest.event, framedFrom_append_bus hl] using ht
  rsp := by simpa using h.rsp
  responses := by simpa using h.responses
  sink := by simpa using s.perform_sized r a o h.sink

/-! ### Ready for the transfer -/

/-- Before its first step no operation makes a transfer. -/
theorem State.transferReady_zero (s : State) {op : Op} (h : 0 < op.events) : s.transferReady op 0 := by
  intro bytes hb
  rw [State.script_port, if_pos h] at hb
  exact absurd (Option.some.inj hb) (s.portStep_zero_ne_send op h bytes)

/-- A line answered `ok` leaves the block ready for the next one: before a transfer stands its `DC` drive (R132, R133). -/
theorem State.transferReady_afterOk {s : State} {op : Op} {n : Nat} {l : Line} (hl : (s.script op)[n]? = some l) :
    (s.afterOk [l]).transferReady op (n + 1) := by
  intro bytes hb
  rw [State.script_afterOk, State.script_port] at hb
  split at hb
  · next hn =>
    obtain ⟨lv, hlv⟩ := State.portStep_before_send hn (Option.some.inj hb)
    have hp : l.port = .drive .dc lv := (State.script_port_of_getElem hl).2.trans hlv
    refine ⟨lv, Nat.succ_pos n, ?_, ?_, ?_⟩
    · rw [State.script_afterOk, Nat.add_sub_cancel, hl, Option.map_some, hp]
    · simp [Line.okEvent, hp, PortRequest.event]
    · simp [State.afterOk, hp, State.perform, Level.latchAfter]
  · cases hb

/-- What readiness says of the line at hand. -/
theorem State.transferReady_line {s : State} {op : Op} {n : Nat} {l : Line} (h : s.transferReady op n)
    (hl : (s.script op)[n]? = some l) (bytes : List Byte) (hs : l.port = .send bytes) :
    ∃ lv, s.trace.getLast? = some (.pin .dc lv .ok) ∧ s.dc = Level.latch lv := by
  obtain ⟨lv, -, -, ht, hd⟩ := h bytes (by rw [hl, Option.map_some, hs])
  exact ⟨lv, ht, hd⟩

/-! ### A run keeps the invariant -/

/-- The length latch says how long the payload is in the operations that have one (R83). -/
def State.payloadOk (op : Op) (s : State) : Prop := op = .command ∨ op = .data → s.payload.length = s.oplen.toNat

/-- A run of an operation's lines from a line it is ready for ends or waits in a state of the invariant. -/
theorem State.runFrom_inv {s : State} {op : Op} {n : Nat} (hn : n ≤ op.events) (h : s.InvButSeq) (hp : s.payloadOk op)
    (hr : s.transferReady op n) : (s.runFrom op n ((s.script op).drop n)).Inv := by
  have keeps : ∀ (n : Nat) (l : Line) (u : State) (a : Answer) (o : Option Lifecycle), (u.script op)[n]? = some l →
      u.InvButSeq → u.transferReady op n → ((u.takeAnswer.perform l.port a).setLc o).InvButSeq := fun n l u a o hl hu hr =>
    State.perform_invButSeq hu l.port a o fun bytes hb =>
      let ⟨lv, ht, _⟩ := State.transferReady_line hr hl bytes hb
      ⟨lv, ht⟩
  refine State.runFrom_rule (fun n u => u.InvButSeq ∧ u.payloadOk op ∧ u.transferReady op n) State.Inv
    ?ok ?fail ?wait ?done hn ⟨h, hp, hr⟩
  case ok =>
    rintro n l u as hl - ⟨hu, hpay, hrdy⟩
    exact ⟨keeps n l u .ok _ hl hu hrdy, by simpa [State.payloadOk] using hpay, State.transferReady_afterOk hl⟩
  case fail =>
    rintro n l u as hl - ⟨hu, -, hrdy⟩
    exact State.respond_inv (keeps n l u .fail _ hl hu hrdy) _
  case wait =>
    rintro n u hlt - ⟨hu, hpay, hrdy⟩
    refine (State.inv_iff _).2 ⟨hu, ?_⟩
    rintro op' n' p' ⟨⟩
    have hpos : u.validPosition op n (pageAt op n) = true := by simp [State.validPosition, State.length_script, hlt]
    exact ⟨hpos, hpay, hrdy⟩
  case done => exact fun u hu => State.respond_inv hu.1 _

/-- The payload a request carries is as long as its length field says (R83). -/
theorem encode_payload_length {i : Instr} (hw : i.wf = true) (h : i.op = .command ∨ i.op = .data) :
    (encode i).pay.length = (fieldA (encode i).word).toNat := by
  cases i with
  | command bytes | data bytes =>
    have hlen : bytes.length ≤ 65535 := (atMost_iff bytes 65535).1 hw
    simp only [encode, fieldA_requestWord, BitVec.toNat_ofNat]
    omega
  | _ => simp [Instr.op] at h

/-- Every accepted operation keeps the invariant. -/
theorem exec_inv {i : Instr} {s t : State} (h : s.InvButSeq) (he : exec i s = .next t) : t.Inv := by
  have hl := State.latchOperands_invButSeq h (encode i)
  obtain ⟨-, hw, ⟨hp, rfl⟩ | ⟨x, y, v, rfl, hb, rfl⟩ | ⟨x, y, v, -, -, rfl⟩ | ⟨-, rfl⟩⟩ := exec_cases he
  · exact State.runFrom_inv (Nat.zero_le _) hl (encode_payload_length hw) (State.transferReady_zero _ hp)
  · exact State.respond_inv (State.storeFb_invButSeq hl (Memory.wf_write h.fb (byteOffset_lt hb))) _
  · exact State.respond_inv hl _
  · exact State.respond_inv (State.storeFb_invButSeq hl (Memory.wf_writeBytes h.fb (by rw [length_zeroBytes]))) _

/-- A position the operation has is a step below its number of events. -/
theorem State.validPosition_lt {s : State} {op : Op} {n : Nat} {p : Fin 8} (h : s.validPosition op n p = true) :
    n < op.events := by
  rw [State.validPosition, Bool.and_eq_true, decide_eq_true_eq, State.length_script] at h
  exact h.1

end Sys2Proof.Machine

namespace Sys2Proof.Proofs

open Sys2Proof.Machine

/-- Settles O55: an idle block keeps its state or accepts a request, and a busy one runs on from the line it is ready for. -/
theorem everyStepKeepsTheInvariant : Obligations.EveryStepKeepsTheInvariant := by
  intro s t hs ht
  have hi := ((State.inv_iff s).1 hs).1
  obtain ⟨-, -, rfl⟩ | ⟨r, rs, i, -, -, -, he⟩ | ⟨op, n, p, hq, hv, rfl⟩ := step_cases ht
  · exact hs
  · have hrs : State.InvButSeq { s with reqs := rs } :=
      ⟨hi.fb, hi.params, hi.latches, State.seqOk_of_idle rfl, hi.trace, hi.rsp, hi.responses, hi.sink⟩
    exact exec_inv hrs he
  · obtain ⟨-, hpay, hrdy⟩ := hs.seq op n p hq
    exact State.runFrom_inv (State.validPosition_lt hv).le hi hpay hrdy

end Sys2Proof.Proofs
end

section
/-! SUPPORT. What a run leaves unchanged and what it appends, and the statements about the state that follow. -/

namespace Sys2Proof.Machine

/-- An operation that writes no lifecycle leaves the register through its whole run (R27). -/
theorem State.runFrom_lc {s : State} {op : Op} (hi : op ≠ .init) (hr : op ≠ .reset) {n : Nat} (hn : n ≤ op.events) :
    (s.runFrom op n ((s.script op).drop n)).lc = s.lc := by
  refine State.runFrom_rule (fun _ u => u.lc = s.lc) (fun t => t.lc = s.lc) ?ok ?fail (fun _ _ _ _ hu => hu)
    (fun _ hu => hu) hn rfl
  case ok =>
    rintro n l u as hl - hu
    simpa [(State.script_line_lc hi hr hl).1] using hu
  case fail =>
    rintro n l u as hl - hu
    simpa [State.afterFail, (State.script_line_lc hi hr hl).2] using hu

/-- A run appends at most the events of its operation to the trace (R33, R246). -/
theorem State.runFrom_trace_grows {s : State} {op : Op} {n : Nat} (hn : n ≤ op.events) :
    ∃ es, (s.runFrom op n ((s.script op).drop n)).trace = s.trace ++ es ∧ es.length ≤ op.events := by
  refine State.runFrom_rule (fun n u => ∃ es, u.trace = s.trace ++ es ∧ es.length ≤ n)
    (fun t => ∃ es, t.trace = s.trace ++ es ∧ es.length ≤ op.events) ?ok ?fail ?wait (fun _ hu => hu) hn
    ⟨[], by simp, Nat.zero_le n⟩
  case ok =>
    rintro n l u as - - ⟨es, he, hlen⟩
    exact ⟨es ++ [l.okEvent], by simp [he], by simpa using hlen⟩
  case fail =>
    rintro n l u as hl - ⟨es, he, hlen⟩
    have hlt := (State.script_port_of_getElem hl).1
    refine ⟨es ++ [l.port.event .fail], by simp [State.afterFail, he], ?_⟩
    simp only [List.length_append, List.length_singleton]
    omega
  case wait =>
    rintro n u hlt - ⟨es, he, hlen⟩
    exact ⟨es, he, by omega⟩

/-- The operand latches, once a request loaded them, stay through the step (R31; log entry 21). -/
theorem exec_latches {i : Instr} {s t : State} (h : exec i s = .next t) :
    t.opv = fieldV (encode i).word ∧ t.opx = fieldA (encode i).word ∧ t.oplen = fieldA (encode i).word ∧
    t.opy = fieldB (encode i).word ∧ t.payload = (encode i).pay := by
  obtain ⟨-, -, ⟨-, rfl⟩ | ⟨x, y, v, -, -, rfl⟩ | ⟨x, y, v, -, -, rfl⟩ | ⟨-, rfl⟩⟩ := exec_cases h <;> simp

/-- No operation changes a strap or a parameter (R24, R25, R35). -/
theorem exec_straps {i : Instr} {s t : State} (h : exec i s = .next t) :
    t.orient = s.orient ∧ t.bias = s.bias ∧ t.params = s.params := by
  obtain ⟨-, -, ⟨-, rfl⟩ | ⟨x, y, v, -, -, rfl⟩ | ⟨x, y, v, -, -, rfl⟩ | ⟨-, rfl⟩⟩ := exec_cases h <;> simp

theorem exec_trace_grows {i : Instr} {s t : State} (h : exec i s = .next t) :
    ∃ es, t.trace = s.trace ++ es ∧ es.length ≤ i.op.events := by
  obtain ⟨-, -, ⟨-, rfl⟩ | ⟨x, y, v, -, -, rfl⟩ | ⟨x, y, v, -, -, rfl⟩ | ⟨-, rfl⟩⟩ := exec_cases h
  · exact State.runFrom_trace_grows (Nat.zero_le _)
  all_goals exact ⟨[], by simp, Nat.zero_le _⟩

/-- Every operation but `SET_PIXEL` and `CLEAR` is a run of its lines on the latched state. -/
theorem exec_eq_run {i : Instr} {s t : State} (hp : i.op ≠ .setPixel) (hc : i.op ≠ .clear) (h : exec i s = .next t) :
    t = (s.latchOperands (encode i)).runFrom i.op 0 ((s.latchOperands (encode i)).script i.op) := by
  obtain ⟨-, -, ⟨-, ht⟩ | ⟨x, y, v, rfl, -⟩ | ⟨x, y, v, rfl, -⟩ | ⟨rfl, -⟩⟩ := exec_cases h
  · exact ht
  · exact absurd rfl hp
  · exact absurd rfl hp
  · exact absurd rfl hc

/-- A busy block's step runs its operation on from its position (R32). -/
theorem step_of_busy {s t : State} {op : Op} {n : Nat} {p : Fin 8} (hs : s.seq = .busy op n p) (h : step s = .next t) :
    s.validPosition op n p = true ∧ t = s.runFrom op n ((s.script op).drop n) := by
  obtain ⟨hq, -⟩ | ⟨r, rs, i, hq, -⟩ | ⟨op', n', p', hq, hv, ht⟩ := step_cases h <;> rw [hs] at hq <;> cases hq
  exact ⟨hv, ht⟩

end Sys2Proof.Machine

namespace Sys2Proof.Proofs

open Sys2Proof.Machine

/-- Settles O22: a run of lines never stores, and a `SET_PIXEL` off the screen only answers. -/
theorem onlySetPixelAndClearWriteTheFramebuffer : Obligations.OnlySetPixelAndClearWriteTheFramebuffer := by
  refine ⟨fun i s t hp hc h => ?_, fun s t hb h => ?_, fun x y v s t h hb => ?_⟩
  · rw [exec_eq_run hp hc h, State.runFrom_fb, State.latchOperands_fb]
  · obtain ⟨op, n, p, hs⟩ := (busy_eq_true_iff s).1 hb
    rw [(step_of_busy hs h).2, State.runFrom_fb]
  · rw [execSetPixel_outOfBounds x y v (exec_accepts h).1 hb] at h
    cases h
    rfl

/-- Settles O45: no line of the other operations writes `LC`, answered `ok` or `fail`. -/
theorem onlyInitAndResetWriteTheLifecycle : Obligations.OnlyInitAndResetWriteTheLifecycle := by
  refine ⟨fun i s t hi hr h => ?_, fun s t op n p hs hi hr h => ?_⟩
  · obtain ⟨-, -, ⟨-, rfl⟩ | ⟨x, y, v, -, -, rfl⟩ | ⟨x, y, v, -, -, rfl⟩ | ⟨-, rfl⟩⟩ := exec_cases h
    · exact State.runFrom_lc hi hr (Nat.zero_le _)
    all_goals simp
  · obtain ⟨hv, rfl⟩ := step_of_busy hs h
    exact State.runFrom_lc hi hr (State.validPosition_lt hv).le

/-- Settles O47: the latches are the word's fields, and the word's fields are the operands it was encoded from. -/
theorem acceptanceLoadsTheLatches : Obligations.AcceptanceLoadsTheLatches := by
  intro i s t h
  obtain ⟨hv, hx, hlen, hy, hpay⟩ := exec_latches h
  refine ⟨hv, hx, hlen, hy, hpay, ?_, ?_, ?_⟩
  · rintro x y v rfl
    rw [hx, hy, hv]
    simp [encode]
  · rintro on rfl
    rw [hv]
    simp [encode]
  · intro bytes hi
    have hop : i.op = .command ∨ i.op = .data := by obtain rfl | rfl := hi <;> simp [Instr.op]
    have hb : (encode i).pay = bytes := by obtain rfl | rfl := hi <;> rfl
    rw [hlen, ← encode_payload_length (exec_accepts h).2 hop, hb, hpay, hb]
    exact ⟨rfl, rfl⟩

/-- Settles O52: a step idles, begins an operation or goes on with one. -/
theorem strapsAndParametersAreForLife : Obligations.StrapsAndParametersAreForLife := by
  intro s t h
  obtain ⟨-, -, rfl⟩ | ⟨r, rs, i, -, -, -, he⟩ | ⟨op, n, p, -, -, rfl⟩ := step_cases h
  · exact ⟨rfl, rfl, rfl⟩
  · exact exec_straps (s := { s with reqs := rs }) he
  · exact ⟨State.runFrom_orient .., State.runFrom_bias .., State.runFrom_params ..⟩

/-- Settles O53: no operation has more than 68 events. -/
theorem traceOnlyGrows : Obligations.TraceOnlyGrows := by
  intro s t h
  obtain ⟨-, -, rfl⟩ | ⟨r, rs, i, -, -, -, he⟩ | ⟨op, n, p, -, hv, rfl⟩ := step_cases h
  · exact ⟨[], by simp, by simp⟩
  · obtain ⟨es, hes, hlen⟩ := exec_trace_grows (s := { s with reqs := rs }) he
    exact ⟨es, hes, hlen.trans (events_le i.op)⟩
  · obtain ⟨es, hes, hlen⟩ := s.runFrom_trace_grows (State.validPosition_lt hv).le
    exact ⟨es, hes, hlen.trans (events_le op)⟩

end Sys2Proof.Proofs
end

section
/-! SUPPORT. The sequencer under a run: where it waits, how it goes on, and the same run one answered event at a time; and
that a run reads no lifecycle. -/

namespace Sys2Proof.Machine

/-! ### Waiting and going on -/

/-- An idle block runs a well-formed operation's lines on the latched state. -/
theorem exec_run {i : Instr} {s : State} (hs : s.seq = .idle) (hw : i.wf = true) (hp : 0 < i.op.events) :
    exec i s = .next ((s.latchOperands (encode i)).runFrom i.op 0 ((s.latchOperands (encode i)).script i.op)) := by
  rw [exec_portOp i s hp, onAccept_idle hs hw]

/-- An operation that waits began with answers that were all `ok` and fewer than its events, and stands behind them (R32). -/
theorem exec_busy {i : Instr} {s t : State} (h : exec i s = .next t) (hb : t.busy = true) :
    ∃ k, k < i.op.events ∧ s.answers = List.replicate k .ok ∧
      t = ((s.latchOperands (encode i)).afterOk (((s.latchOperands (encode i)).script i.op).take k)).waiting i.op k := by
  have hidle : t.seq ≠ .idle := fun hq => by rw [(busy_eq_false_iff t).2 hq] at hb; cases hb
  obtain ⟨-, -, ⟨-, ht⟩ | ⟨x, y, v, -, -, ht⟩ | ⟨x, y, v, -, -, ht⟩ | ⟨-, ht⟩⟩ := exec_cases h
  · obtain ⟨rest, -, hr⟩ | ⟨k, l, rest, -, -, hr⟩ | ⟨k, hk, ha, hr⟩ :=
      State.runFrom_cases i.op 0 ((s.latchOperands (encode i)).script i.op) (s.latchOperands (encode i))
    · exact absurd (by rw [ht, hr]; rfl) hidle
    · exact absurd (by rw [ht, hr]; rfl) hidle
    · rw [Nat.zero_add] at hr
      exact ⟨k, by rwa [State.length_script] at hk, ha, ht.trans hr⟩
  all_goals exact absurd (by rw [ht]; rfl) hidle

/-- A step takes a waiting operation up at its line, with the answers that have come (R32). -/
theorem step_waiting {s : State} {op : Op} {k : Nat} (hk : k < op.events) (as : List Answer) :
    step { s.waiting op k with answers := as } =
      .next (State.runFrom op k ((s.script op).drop k) { s with answers := as }) := by
  have hscript : State.script { s.waiting op k with answers := as } op = s.script op :=
    State.script_congr rfl rfl rfl rfl rfl rfl op
  have hpos : State.validPosition { s.waiting op k with answers := as } op k (pageAt op k) = true := by
    simp [State.validPosition, hscript, State.length_script, hk]
  show State.resume op k (pageAt op k) { s.waiting op k with answers := as } = _
  rw [State.resume, hpos, hscript]
  exact congrArg Host.Outcome.next (State.runFrom_seq op k _ { s with answers := as } _)

/-- A run whose first lines are all answered `ok` goes on with the answers behind theirs (R32). -/
theorem State.runFrom_split (op : Op) (n : Nat) (ls ls' : List Line) (s : State) (bs : List Answer) :
    State.runFrom op n (ls ++ ls') { s with answers := List.replicate ls.length .ok ++ bs } =
      State.runFrom op (n + ls.length) ls' { s.afterOk ls with answers := bs } := by
  have hframe := State.afterOk_frame ls s s.seq (List.replicate ls.length .ok ++ bs)
  rw [List.drop_left' List.length_replicate] at hframe
  rw [State.runFrom_append op n ls ls' _ bs rfl, hframe]
  exact State.runFrom_seq op (n + ls.length) ls' { s.afterOk ls with answers := bs } s.seq

/-! ### One answered event at a time -/

theorem State.sequencerSteps_fixed {s : State} (h : s.sequencerStep = s) (n : Nat) : State.sequencerSteps n s = s := by
  induction n with
  | zero => rfl
  | succ n ih => rw [State.sequencerSteps, h, ih]

theorem State.sequencerStep_idle {s : State} (h : s.seq = .idle) : s.sequencerStep = s := by
  unfold State.sequencerStep
  split
  · rfl
  · next hb => rw [h] at hb; cases hb

theorem State.sequencerStep_unanswered {s : State} (h : s.answers = []) : s.sequencerStep = s := by
  unfold State.sequencerStep
  split
  · rfl
  · split
    · rfl
    · split
      · rfl
      · next ha => rw [h] at ha; cases ha
      · next ha => rw [h] at ha; cases ha

theorem State.arriveAt_of_lt {s : State} {op : Op} {n : Nat} (h : n < op.events) : s.arriveAt op n = s.waiting op n := by
  rw [State.arriveAt, State.length_script, if_pos h]
  rfl

theorem State.arriveAt_end (s : State) (op : Op) : s.arriveAt op op.events = s.respond .ok := by
  rw [State.arriveAt, State.length_script, if_neg (Nat.lt_irrefl _)]
  rfl

/-- Arriving at a step writes the sequencer and does not read it. -/
theorem State.arriveAt_seqFrame (s : State) (op : Op) (n : Nat) (q : Seq) :
    ({ s with seq := q } : State).arriveAt op n = s.arriveAt op n := by
  rw [State.arriveAt, State.arriveAt, State.length_script, State.length_script]
  split <;> rfl

/-- The sequencer that stands before a line goes on, in as many moves as there are lines left or more, to where the run of these
lines ends or waits (R32). -/
theorem State.runFrom_eq_sequencerSteps {s : State} {op : Op} {n m : Nat} (hn : n ≤ op.events) (hm : op.events ≤ m + n) :
    s.runFrom op n ((s.script op).drop n) = State.sequencerSteps m (s.arriveAt op n) := by
  have key := State.runFrom_rule (op := op)
    (fun k u => ∃ m', op.events ≤ m' + k ∧ State.sequencerSteps m (s.arriveAt op n) = State.sequencerSteps m' (u.arriveAt op k))
    (fun t => State.sequencerSteps m (s.arriveAt op n) = t) ?ok ?fail ?wait ?done hn ⟨m, hm, rfl⟩
  · exact key.symm
  case ok =>
    rintro k l u as hl ha ⟨m', hm', he⟩
    have hk := (State.script_port_of_getElem hl).1
    obtain ⟨m', rfl⟩ := Nat.exists_eq_succ_of_ne_zero (show m' ≠ 0 by omega)
    refine ⟨m', by omega, he.trans ?_⟩
    have hw : ((u.waiting op k).script op)[k]? = some l := hl
    rw [State.arriveAt_of_lt hk, State.sequencerSteps, State.sequencerStep_ok rfl hw ha]
    congr 1
    show ((u.waiting op k).afterOk [l]).arriveAt op (k + 1) = _
    rw [State.waiting, State.afterOk_seqFrame, State.arriveAt_seqFrame]
  case fail =>
    rintro k l u as hl ha ⟨m', hm', he⟩
    have hk := (State.script_port_of_getElem hl).1
    obtain ⟨m', rfl⟩ := Nat.exists_eq_succ_of_ne_zero (show m' ≠ 0 by omega)
    refine he.trans ?_
    have hw : ((u.waiting op k).script op)[k]? = some l := hl
    rw [State.arriveAt_of_lt hk, State.sequencerSteps, State.sequencerStep_fail rfl hw ha]
    show State.sequencerSteps m' ((u.waiting op k).afterFail l) = _
    rw [State.waiting, State.afterFail_seqFrame]
    exact State.sequencerSteps_fixed (State.sequencerStep_idle rfl) m'
  case wait =>
    rintro k u hk ha ⟨m', -, he⟩
    rw [he, State.arriveAt_of_lt hk]
    exact State.sequencerSteps_fixed (State.sequencerStep_unanswered (s := u.waiting op k) ha) m'
  case done =>
    rintro u ⟨m', -, he⟩
    rw [he, State.arriveAt_end]
    exact State.sequencerSteps_fixed (State.sequencerStep_idle rfl) m'

end Sys2Proof.Machine

namespace Sys2Proof.Proofs

open Sys2Proof.Machine

/-- Settles O38: the operation waits behind its first `k` lines, each of which left its event. -/
theorem unansweredEventKeepsTheOperationBusy : Obligations.UnansweredEventKeepsTheOperationBusy := by
  intro i s k hs hw hk ha l
  have hpos : 0 < i.op.events := by omega
  have hklen : k < (l.script i.op).length := by rwa [State.length_script]
  obtain ⟨σ, n, hrun⟩ := State.afterOk_eq ((l.script i.op).take k) l
  have hans : l.answers.drop ((l.script i.op).take k).length = [] := by
    rw [State.latchOperands_answers, ha]
    simp [hklen.le]
  rw [hans, State.script_take_events _ _ _ hk.le, State.script_lc _ _ _ hk.le hpos] at hrun
  refine ⟨σ, n, pageAt i.op k, ?_, fun hshow p hp h1 h2 => ?_, fun hshow => ?_⟩
  · have hwait := State.runFrom_wait i.op 0 k _ l hklen ha
    rw [hrun, Nat.zero_add] at hwait
    exact (exec_run hs hw hpos).trans (congrArg Host.Outcome.next hwait)
  · rw [hshow]
    simp only [pageAt]
    omega
  · cases hop : i.op with
    | showFb => exact absurd hop hshow
    | _ => rfl

/-- Settles O40: both runs pass through the state behind the answers `as`, and the rest of the lines sees `bs` alone. -/
theorem laterAnswersResumeTheOperation : Obligations.LaterAnswersResumeTheOperation := by
  intro i s t as bs h hb
  obtain ⟨hs, hw⟩ := exec_accepts h
  obtain ⟨k, hk, ha, rfl⟩ := exec_busy h hb
  obtain rfl : as = List.replicate k .ok := ha
  generalize hl : State.latchOperands (encode i) { s with answers := List.replicate k .ok } = l
  have hlen : ((l.script i.op).take k).length = k := by simp [State.length_script, hk.le]
  have hrun := State.runFrom_split i.op 0 ((l.script i.op).take k) ((l.script i.op).drop k) l bs
  rw [List.take_append_drop, hlen, Nat.zero_add] at hrun
  have hscript : l.script i.op = ({ l with answers := List.replicate k .ok ++ bs } : State).script i.op :=
    State.script_congr rfl rfl rfl rfl rfl rfl i.op
  have hlatch : ({ l with answers := List.replicate k .ok ++ bs } : State) =
      State.latchOperands (encode i) { s with answers := List.replicate k .ok ++ bs } := by rw [← hl]; rfl
  rw [step_waiting hk, State.script_afterOk, ← hrun, hscript, hlatch]
  exact (exec_run (s := { s with answers := List.replicate k .ok ++ bs }) hs hw (Nat.zero_lt_of_lt hk)).symm

/-- Settles O41: the run of the lines from step 0 is at most 68 moves of the sequencer. -/
theorem operationIsTheSequencerEventByEvent : Obligations.OperationIsTheSequencerEventByEvent := by
  intro i s t hp h
  rw [exec_portOp i s hp] at h
  cases (onAccept_next h).2.2
  have hstart : State.arriveAt i.op 0 (s.latchOperands (encode i)) =
      { s.latchOperands (encode i) with seq := .busy i.op 0 0 } := by
    rw [State.arriveAt_of_lt hp, State.waiting]
    cases i.op <;> rfl
  rw [← hstart]
  exact State.runFrom_eq_sequencerSteps (Nat.zero_le _) (events_le i.op)

/-- Settles O44: a run, a store and an answer each carry the changed `LC` along and read it nowhere. -/
theorem lifecycleGatesNothing : Obligations.LifecycleGatesNothing := by
  intro i s t l h
  obtain ⟨hs, hw, ⟨hp, rfl⟩ | ⟨x, y, v, rfl, hb, rfl⟩ | ⟨x, y, v, rfl, hb, rfl⟩ | ⟨rfl, rfl⟩⟩ := exec_cases h
  · obtain ⟨l', hl'⟩ := State.runFrom_lcFrame i.op 0 ((s.latchOperands (encode i)).script i.op) (s.latchOperands (encode i)) l
    have hscript : (State.latchOperands (encode i) { s with lc := l }).script i.op =
        (s.latchOperands (encode i)).script i.op := State.script_congr rfl rfl rfl rfl rfl rfl i.op
    have hrun := exec_run (s := { s with lc := l }) hs hw hp
    rw [hscript] at hrun
    exact ⟨l', hrun.trans (congrArg Host.Outcome.next hl')⟩
  · exact ⟨l, execSetPixel_inBounds (s := { s with lc := l }) x y v hs hb⟩
  · exact ⟨l, execSetPixel_outOfBounds (s := { s with lc := l }) x y v hs hb⟩
  · rw [execClear_idle (s := { s with lc := l }) hs]
    generalize zeroBytes = zs
    exact ⟨l, rfl⟩

end Sys2Proof.Proofs
end

section
/-! SUPPORT. What a run makes of the wait for the contrast command's argument (R66), and the statement about it. -/

namespace Sys2Proof.Machine

/-- From `s` the events behind its trace, and they alone, made the `DC` latch and the wait of `u` what they are (R28, R66). -/
def State.WaitFollows (s u : State) : Prop :=
  ∃ es, u.trace = s.trace ++ es ∧ u.params = s.params ∧ u.dc = latchOf .dc s.dc es ∧
    u.sink.awaitsArg = contrastWait s.params s.sink.awaitsArg (taggedStream s.dc es)

theorem State.waitFollows_of_eq {s t : State} (ht : t.trace = s.trace) (hp : t.params = s.params) (hd : t.dc = s.dc)
    (hs : t.sink = s.sink) : s.WaitFollows t := ⟨[], by rw [ht, List.append_nil], hp, hd, by rw [hs]; rfl⟩

theorem State.perform_dc (s : State) (r : PortRequest) (a : Answer) :
    (s.perform r a).dc = latchOf .dc s.dc [r.event a] := by
  cases r <;> simp [State.perform, PortRequest.event, latchOf]

/-- A performed line carries it on, a transfer when `DC` is known. -/
theorem State.WaitFollows.perform {s u : State} (h : s.WaitFollows u) (r : PortRequest) (a : Answer) (o : Option Lifecycle)
    (hr : ∀ bytes, r = .send bytes → u.dc ≠ .unknown) : s.WaitFollows ((u.takeAnswer.perform r a).setLc o) := by
  obtain ⟨es, ht, hp, hd, hw⟩ := h
  refine ⟨es ++ [r.event a], by simp [ht], by simp [hp], ?_, ?_⟩
  · rw [State.setLc_dc, State.perform_dc, State.takeAnswer_dc, hd, latchOf_append]
  · rw [State.perform_awaitsArg u r a o hr, hp, hw, hd, taggedStream_append, contrastWait_append]

/-- A run from a line it is ready for moves the wait as its byte stream says. -/
theorem State.runFrom_waitFollows {s : State} {op : Op} {n : Nat} (hn : n ≤ op.events) (hr : s.transferReady op n) :
    s.WaitFollows (s.runFrom op n ((s.script op).drop n)) := by
  have carry : ∀ (n : Nat) (l : Line) (u : State) (a : Answer) (o : Option Lifecycle), (u.script op)[n]? = some l →
      s.WaitFollows u → u.transferReady op n → s.WaitFollows ((u.takeAnswer.perform l.port a).setLc o) := by
    intro n l u a o hl hu hrdy
    refine hu.perform l.port a o fun bytes hb => ?_
    obtain ⟨lv, -, hd⟩ := State.transferReady_line hrdy hl bytes hb
    rw [hd]
    cases lv <;> rintro ⟨⟩
  refine State.runFrom_rule (fun n u => s.WaitFollows u ∧ u.transferReady op n) s.WaitFollows ?ok ?fail ?wait ?done hn
    ⟨State.waitFollows_of_eq rfl rfl rfl rfl, hr⟩
  case ok => exact fun n l u as hl _ hu => ⟨carry n l u .ok _ hl hu.1 hu.2, State.transferReady_afterOk hl⟩
  case fail => exact fun n l u as hl _ hu => carry n l u .fail _ hl hu.1 hu.2
  case wait => exact fun n u _ _ hu => hu.1
  case done => exact fun u hu => hu.1

theorem State.WaitFollows.awaitsArg {s t : State} (h : s.WaitFollows t) {es : List Event} (he : t.trace = s.trace ++ es) :
    t.sink.awaitsArg = contrastWait s.params s.sink.awaitsArg (taggedStream s.dc es) := by
  obtain ⟨es', he', -, -, hw⟩ := h
  rw [hw, List.append_cancel_left (he'.symm.trans he)]

/-- Every operation moves the wait as its byte stream says. -/
theorem exec_waitFollows {i : Instr} {s t : State} (h : exec i s = .next t) : s.WaitFollows t := by
  obtain ⟨-, -, ⟨hp, rfl⟩ | ⟨x, y, v, -, -, rfl⟩ | ⟨x, y, v, -, -, rfl⟩ | ⟨-, rfl⟩⟩ := exec_cases h
  · exact State.runFrom_waitFollows (Nat.zero_le _) (State.transferReady_zero _ hp)
  all_goals exact State.waitFollows_of_eq (by simp) (by simp) (by simp) (by simp)

end Sys2Proof.Machine

namespace Sys2Proof.Proofs

open Sys2Proof.Machine

/-- Settles O60: a transfer is made only behind its answered `DC` drive, so every delivered byte carries a level. -/
theorem contrastArgumentFollowsTheByteStream : Obligations.ContrastArgumentFollowsTheByteStream := by
  refine ⟨fun i s t es h he => (exec_waitFollows h).awaitsArg he, fun s t es hinv hb h he => ?_⟩
  obtain ⟨op, n, p, hq⟩ := (busy_eq_true_iff s).1 hb
  obtain ⟨hv, rfl⟩ := step_of_busy hq h
  obtain ⟨-, -, hrdy⟩ := hinv.seq op n p hq
  exact (State.runFrom_waitFollows (State.validPosition_lt hv).le hrdy).awaitsArg he

end Sys2Proof.Proofs
end

section
/-! SUPPORT. The statements about power-on and about the step of an idle block. -/

namespace Sys2Proof.Proofs

open Sys2Proof.Machine

/-- Settles O11: each clause is the field `State.powerOn` gives. -/
theorem powerOnState : Obligations.PowerOnState :=
  fun _ _ _ _ _ _ _ => ⟨rfl, rfl, rfl, rfl, rfl, rfl, rfl, rfl, rfl, rfl, rfl, rfl, rfl⟩

/-- Settles O13: the default command bytes are fixed, so their two predicates are decided. -/
theorem resetIsAPowerOnState : Obligations.ResetIsAPowerOnState := ⟨rfl, by decide, by decide⟩

/-- Settles O48: an idle block looks at the first request and runs what it decodes to. -/
theorem stepRunsTheDecodedRequest : Obligations.StepRunsTheDecodedRequest := by
  intro s r rs i hs hr hd
  unfold step State.runNextRequest
  rw [hs]
  simp only [hr, hd]

/-- Settles O54: an idle block with empty lists has nothing to keep but what it is given. -/
theorem invariantHoldsAtPowerOn : Obligations.InvariantHoldsAtPowerOn := by
  have hall : ∀ (c : Params) (o : Orientation) (b : Bias) (m : List Host.Cell) (σ : Sink) (rs : List Request)
      (as : List Answer), c.Legal → Memory.wf m = true → σ.sized c.sinkCols = true → (State.powerOn c o b m σ rs as).Inv :=
    fun c o b m σ rs as hc hm hσ => ⟨hm, hc, rfl, State.seqOk_of_idle rfl, rfl, (fun _ h => by cases h), rfl, hσ⟩
  exact ⟨hall _ _ _ _ _ _ _ (by decide) rfl (Sink.replicate_sized _ _ _ _ _ _), hall⟩

end Sys2Proof.Proofs
end

section
/-! SUPPORT. The bit-address translation (R52, R53): its inverse, and the bit slices of the coordinates as numbers. -/

namespace Sys2Proof.Machine

/-- The column of a pixel of the screen, from its byte offset (R52). -/
theorem byteOffset_mod {x y : Operand} (hx : x.toNat ≤ 127) : byteOffset x y % 128 = x.toNat := by
  rw [byteOffset]
  omega

/-- Its row, from the byte offset and the bit (R52). -/
theorem byteOffset_div {x y : Operand} (hx : x.toNat ≤ 127) : byteOffset x y / 128 * 8 + bitPosition y = y.toNat := by
  rw [byteOffset, pageOf, bitPosition]
  omega

/-- No two pixels of the screen share a bit (R52). -/
theorem translation_injective {x y x' y' : Operand} (hx : x.toNat ≤ 127) (hx' : x'.toNat ≤ 127)
    (ho : byteOffset x' y' = byteOffset x y) (hb : bitPosition y' = bitPosition y) : x' = x ∧ y' = y := by
  constructor <;> apply BitVec.eq_of_toNat_eq
  · rw [← byteOffset_mod hx', ho, byteOffset_mod hx]
  · rw [← byteOffset_div hx', ho, hb, byteOffset_div hx]

/-- Every bit of the framebuffer is a pixel's (R52). -/
theorem translation_surjective {a b : Nat} (ha : a < 1024) (hb : b < 8) :
    ∃ x y : Operand, x.toNat ≤ 127 ∧ y.toNat ≤ 63 ∧ byteOffset x y = a ∧ bitPosition y = b := by
  refine ⟨BitVec.ofNat 16 (a % 128), BitVec.ofNat 16 (a / 128 * 8 + b), ?_⟩
  have hx : a % 128 % 2 ^ 16 = a % 128 := Nat.mod_eq_of_lt (by omega)
  have hy : (a / 128 * 8 + b) % 2 ^ 16 = a / 128 * 8 + b := Nat.mod_eq_of_lt (by omega)
  rw [byteOffset, pageOf, bitPosition, BitVec.toNat_ofNat, BitVec.toNat_ofNat, hx, hy]
  omega

/-- A field of a word as a number. -/
theorem toNat_slice {w : Nat} (x : BitVec w) (start len : Nat) :
    (x.extractLsb' start len).toNat = x.toNat / 2 ^ start % 2 ^ len := by
  rw [BitVec.extractLsb'_toNat, Nat.shiftRight_eq_div_pow]

/-- Two fields put side by side, as a number. -/
theorem toNat_concat {m n : Nat} (x : BitVec m) (y : BitVec n) : (x ++ y).toNat = x.toNat * 2 ^ n + y.toNat := by
  rw [BitVec.toNat_append, ← Nat.shiftLeft_add_eq_or_of_lt y.isLt, Nat.shiftLeft_eq]

end Sys2Proof.Machine

namespace Sys2Proof.Proofs

open Sys2Proof.Machine

/-- Settles O14: the offset and the bit give the pixel back, and the pixel so read off any bit is translated to that bit. -/
theorem translationIsABijection : Obligations.TranslationIsABijection := by
  refine ⟨fun x y hx hy => ?_, fun a b ha hb => ?_⟩
  · exact ⟨rfl, rfl, byteOffset_lt ((inBounds_iff x y).2 ⟨by omega, by omega⟩), Nat.mod_lt _ (by decide), byteOffset_mod hx,
      byteOffset_div hx⟩
  · obtain ⟨x, y, hx, hy, rfl, rfl⟩ := translation_surjective ha hb
    exact ⟨x, y, hx, hy, rfl, rfl, fun x' y' hx' _ => translation_injective hx hx'⟩

/-- Settles O15: a slice is a quotient and a remainder, and slices side by side are a sum with weights. -/
theorem translationByBitSlices : Obligations.TranslationByBitSlices := by
  intro x y hx hy
  have hpage : (y.extractLsb' 3 3).toNat = y.toNat / 8 := by rw [toNat_slice]; omega
  have hbit : (y.extractLsb' 0 3).toNat = y.toNat % 8 := by rw [toNat_slice]; omega
  have hcol : (x.extractLsb' 0 7).toNat = x.toNat := by rw [toNat_slice]; omega
  have hoff : byteOffset x y = (y.extractLsb' 3 3 ++ x.extractLsb' 0 7 : BitVec 10).toNat := by
    rw [toNat_concat, hpage, hcol, byteOffset, pageOf]
    rfl
  refine ⟨hpage.symm, ?_, hoff, hbit.symm, ?_⟩
  · exact Nat.le_of_lt_succ (byteOffset_lt ((inBounds_iff x y).2 ⟨by omega, by omega⟩))
  · rw [toNat_concat, hbit, ← hoff, bitPosition]
    rfl

end Sys2Proof.Proofs
end

section
/-! SUPPORT. One byte in the sink model (R66): where a data byte and a run of data bytes go, and what a command byte does
to each field, with the statements about both. -/

namespace Sys2Proof.Machine

/-! ### Data bytes -/

@[simp] theorem Sink.data_sp (c : Params) (σ : Sink) (b : Byte) : (Sink.data c σ b).sp = σ.sp := rfl

/-- Below its last value the column pointer advances by one. -/
theorem Sink.data_sc (c : Params) {σ : Sink} (b : Byte) (h : σ.sc.toNat < 255) :
    (Sink.data c σ b).sc.toNat = σ.sc.toNat + 1 := by
  have hne : σ.sc ≠ 255 := by rintro h'; rw [h'] at h; exact absurd h (by decide)
  have hsc : (Sink.data c σ b).sc = σ.sc + 1 := if_neg hne
  rw [hsc, BitVec.toNat_add]
  exact Nat.mod_eq_of_lt (show σ.sc.toNat + 1 < 2 ^ 8 by omega)

/-- The display RAM with one existing cell written. -/
theorem cell_modify_set {rows : List (List Byte)} {r k : Nat} (b : Byte) (hr : ∀ row, rows[r]? = some row → k < row.length)
    (hlen : r < rows.length) (p q : Nat) :
    ((rows.modify r fun row => row.set k b)[p]?.bind fun row => row[q]?) =
      if p = r ∧ q = k then some b else rows[p]?.bind fun row => row[q]? := by
  rw [List.getElem?_modify]
  by_cases hp : p = r
  · subst hp
    rw [List.getElem?_eq_getElem hlen]
    have hk := hr _ (List.getElem?_eq_getElem hlen)
    by_cases hq : q = k
    · simp [hq, hk]
    · simp [hq, List.getElem?_set_ne (Ne.symm hq)]
  · simp [hp, Ne.symm hp]

/-- A data byte writes the cell at the pointers when the sink has it, and no other (R66). -/
theorem Sink.cell_data {c : Params} {σ : Sink} (h : σ.sized c.sinkCols = true) (b : Byte) (p k : Nat) :
    (Sink.data c σ b).cell p k =
      if p = σ.sp.toNat ∧ k = σ.sc.toNat ∧ k < c.sinkCols then some b else σ.cell p k := by
  obtain ⟨hrows, hcols⟩ := (Sink.sized_iff _ _).1 h
  rw [Sink.cell, Sink.data]
  by_cases hsc : σ.sc.toNat < c.sinkCols
  · have hrow : ∀ row, σ.ddram[σ.sp.toNat]? = some row → σ.sc.toNat < row.length := fun row hr => by
      rwa [hcols row (List.mem_of_getElem? hr)]
    simp only [if_pos hsc]
    rw [cell_modify_set b hrow (by rw [hrows]; exact σ.sp.isLt)]
    exact if_congr (by omega) rfl rfl
  · simp only [if_neg hsc]
    rw [if_neg (by omega), Sink.cell]

/-- A run of data bytes that ends before the last column fills the row at the page pointer from the column pointer on. -/
theorem Sink.cell_foldl_data {c : Params} (bs : List Byte) {σ : Sink} (h : σ.sized c.sinkCols = true)
    (hlast : σ.sc.toNat + bs.length ≤ 255) (hcols : σ.sc.toNat + bs.length ≤ c.sinkCols) (p k : Nat) :
    (bs.foldl (Sink.data c) σ).cell p k =
      if p = σ.sp.toNat ∧ σ.sc.toNat ≤ k ∧ k < σ.sc.toNat + bs.length then bs[k - σ.sc.toNat]? else σ.cell p k := by
  induction bs generalizing σ with
  | nil => rw [List.length_nil, if_neg (by omega), List.foldl_nil]
  | cons b bs ih =>
    rw [List.length_cons] at hlast hcols ⊢
    have hsc := Sink.data_sc c (σ := σ) b (by omega)
    rw [List.foldl_cons, ih (Sink.data_sized c _ σ b h) (by omega) (by omega), Sink.cell_data h, Sink.data_sp, hsc]
    by_cases hk : p = σ.sp.toNat ∧ k = σ.sc.toNat
    · obtain ⟨rfl, rfl⟩ := hk
      rw [if_neg (by omega), if_pos (by omega), if_pos (by omega), Nat.sub_self]
      rfl
    · by_cases hin : p = σ.sp.toNat ∧ σ.sc.toNat + 1 ≤ k ∧ k < σ.sc.toNat + 1 + bs.length
      · rw [if_pos hin, if_pos (by omega), show k - σ.sc.toNat = k - (σ.sc.toNat + 1) + 1 by omega, List.getElem?_cons_succ]
      · rw [if_neg hin, if_neg (by omega), if_neg (by omega)]

/-! ### Command bytes -/

/-- The contrast command's argument does nothing but end the wait (log entry 15). -/
theorem Sink.command_argument {c : Params} {σ : Sink} (h : σ.awaitsArg = true) (b : Byte) :
    Sink.command c σ b = { σ with awaitsArg := false } := if_pos h

/-- Any other command byte is matched against every pattern (log entry 7). -/
theorem Sink.command_matched {c : Params} {σ : Sink} (h : σ.awaitsArg = false) (b : Byte) :
    Sink.command c σ b =
      { (((σ.selectPage c b).selectColLow c b).selectColHigh c b).markRmw c b with awaitsArg := b == c.setContrast } :=
  if_neg (by rw [h]; decide)

/-- A command byte that is not the contrast command leaves no wait, whether or not it is an argument. -/
theorem Sink.command_awaitsArg_of_ne {c : Params} {b : Byte} (h : c.setContrast ≠ b) (σ : Sink) :
    (Sink.command c σ b).awaitsArg = false := by
  cases hw : σ.awaitsArg with
  | true => rw [Sink.command_argument hw]
  | false =>
    rw [Sink.command_matched hw]
    exact beq_false_of_ne (Ne.symm h)

section
variable {c : Params} {σ : Sink} (hw : σ.awaitsArg = false) (b : Byte)
include hw

/-- The page pointer is the page pattern's alone. -/
theorem Sink.command_sp : (Sink.command c σ b).sp = (σ.selectPage c b).sp := by
  rw [Sink.command_matched hw]
  obtain ⟨hmark, -⟩ := Sink.markRmw_fields c b (((σ.selectPage c b).selectColLow c b).selectColHigh c b)
  obtain ⟨hhigh, -⟩ := Sink.selectColHigh_fields c b ((σ.selectPage c b).selectColLow c b)
  obtain ⟨hlow, -⟩ := Sink.selectColLow_fields c b (σ.selectPage c b)
  exact hmark.trans (hhigh.trans hlow)

/-- The column pointer is the two column patterns'. -/
theorem Sink.command_sc :
    (Sink.command c σ b).sc = (((σ.selectPage c b).selectColLow c b).selectColHigh c b).sc := by
  rw [Sink.command_matched hw]
  exact (Sink.markRmw_fields c b _).2.1

/-- The column's low nibble is the column-low pattern's alone. -/
theorem Sink.command_lowNibble :
    (Sink.command c σ b).sc.extractLsb' 0 4 = ((σ.selectPage c b).selectColLow c b).sc.extractLsb' 0 4 := by
  obtain ⟨-, -, hlow, -⟩ := Sink.selectColHigh_fields c b ((σ.selectPage c b).selectColLow c b)
  rw [Sink.command_sc hw, hlow]

/-- The mode bit is the enter and exit commands'. -/
theorem Sink.command_rmw : (Sink.command c σ b).rmw = if b = c.rmwEnter then true else if b = c.rmwExit then false else σ.rmw := by
  obtain ⟨-, -, hmark⟩ := Sink.markRmw_fields c b (((σ.selectPage c b).selectColLow c b).selectColHigh c b)
  obtain ⟨-, hhigh, -⟩ := Sink.selectColHigh_fields c b ((σ.selectPage c b).selectColLow c b)
  obtain ⟨-, hlow, -⟩ := Sink.selectColLow_fields c b (σ.selectPage c b)
  obtain ⟨-, hpage, -⟩ := Sink.selectPage_fields c b σ
  rw [← hpage, ← hlow, ← hhigh, ← hmark, Sink.command_matched hw]

end

end Sys2Proof.Machine

namespace Sys2Proof.Proofs

open Sys2Proof.Machine

/-- Settles O36: the cell at the pointers is written when its row is long enough, and the pointer below 255 has room for one
more. -/
theorem sinkStoresDataAtItsPointers : Obligations.SinkStoresDataAtItsPointers := by
  refine fun c σ b h => ⟨Sink.cell_data h b, rfl, fun hne => Sink.data_sc c b ?_⟩
  have hlt := σ.sc.isLt
  have : σ.sc.toNat ≠ 255 := fun h255 => hne (BitVec.eq_of_toNat_eq h255)
  omega

/-- Settles O58: each field of the sink is moved by one pattern, whose three cases its own lemma gives. -/
theorem commandByteMovesTheSinkPointers : Obligations.CommandByteMovesTheSinkPointers := by
  refine fun c σ b => ⟨fun hw => Sink.command_argument hw b, fun hw => ?_⟩
  obtain ⟨hpageSc, -, hpage, hpageKeeps⟩ := Sink.selectPage_fields c b σ
  obtain ⟨-, -, hlowHigh, hlow, hlowKeeps⟩ := Sink.selectColLow_fields c b (σ.selectPage c b)
  obtain ⟨-, -, -, hhigh, hhighKeeps⟩ := Sink.selectColHigh_fields c b ((σ.selectPage c b).selectColLow c b)
  rw [Sink.command_sp hw, Sink.command_lowNibble hw, Sink.command_sc hw, Sink.command_rmw hw]
  refine ⟨Sink.command_ddram c σ b, ?_, hpage, hpageKeeps, hlow, hpageSc ▸ hlowKeeps, hhigh, ?_, ?_, ?_, ?_⟩
  · rw [Sink.command_matched hw]
    exact beq_iff_eq
  · exact fun hn => by rw [hhighKeeps hn, hlowHigh, hpageSc]
  · exact fun henter => if_pos henter
  · exact fun hexit hne => by rw [if_neg hne, if_pos hexit]
  · exact fun hne hne' => by rw [if_neg hne, if_neg hne']

end Sys2Proof.Proofs
end

section
/-! SUPPORT. A successful `SHOW`: it ends behind all its lines, and the byte stream of these lines is the framebuffer between
the bracket commands (R55, R174, R175, R246). -/

namespace Sys2Proof.Machine

/-- Only `OK` has the code of `OK` (R85). -/
theorem rspStatus_word (st : Status) (x y : Operand) : rspStatus (st.word x y) = st.code := by
  cases st <;> exact rspStatus_responseWord _ _ _

theorem PortRequest.error_ne_ok (r : PortRequest) : r.error.code ≠ Status.ok.code := by
  cases r with
  | drive p l => exact (by decide : Status.pinError.code ≠ Status.ok.code)
  | send bytes => exact (by decide : Status.busError.code ≠ Status.ok.code)

/-- An operation with port events that ends `OK` had every line answered `ok` (R139, R200). -/
theorem exec_endsOk {i : Instr} {s t : State} (hp : i.op ≠ .setPixel) (hc : i.op ≠ .clear) (h : exec i s = .next t)
    (hidle : t.seq = .idle) (hok : rspStatus t.rsp = Status.ok.code) :
    t = ((s.latchOperands (encode i)).afterOk ((s.latchOperands (encode i)).script i.op)).respond .ok := by
  have ht := exec_eq_run hp hc h
  rcases State.runFrom_cases i.op 0 ((s.latchOperands (encode i)).script i.op) (s.latchOperands (encode i)) with
    ⟨rest, -, hr⟩ | ⟨k, l, rest, -, -, hr⟩ | ⟨k, -, -, hr⟩
  · exact ht.trans hr
  · rw [ht, hr, State.afterFail, State.raise_eq_respond, State.respond_rsp, rspStatus_word] at hok
    exact absurd hok l.port.error_ne_ok
  · rw [ht, hr] at hidle
    cases hidle

/-- A `SHOW` that ends `OK` is at the state behind its 68 lines. -/
theorem execShow_endsOk {s t : State} (h : exec .showFb s = .next t) (hidle : t.seq = .idle)
    (hok : rspStatus t.rsp = Status.ok.code) :
    t = ((s.latchOperands (encode .showFb)).afterOk s.showLines).respond .ok := by
  have hlines : (s.latchOperands (encode .showFb)).script Instr.showFb.op = s.showLines := rfl
  rw [← hlines]
  exact exec_endsOk (by decide) (by decide) h hidle hok

/-! ### The byte stream -/

/-- The bytes of page `p`'s four transfers, tagged: three address commands, then the page's slice (R172, R173). -/
def State.pageStream (s : State) (p : Nat) : List (Latch × Byte) :=
  [(.low, pageCmd s.params p), (.low, colLowCmd s.params s.orient), (.low, colHighCmd s.params)] ++
    (s.pageSlice p).map fun b => (.high, b)

/-- Whatever `DC` held before, the lines of page `p` deliver exactly them (R33). -/
theorem taggedStream_pageLines (s : State) (p : Nat) (dc : Latch) :
    taggedStream dc ((s.pageLines p).map Line.okEvent) = s.pageStream p := by
  show (.low, _) :: (.low, _) :: (.low, _) :: ((s.pageSlice p).map (fun b => (Latch.high, b)) ++ []) = _
  rw [List.append_nil]
  rfl

theorem taggedStream_flatMap_pageLines (s : State) (ps : List Nat) (dc : Latch) :
    taggedStream dc ((ps.flatMap s.pageLines).map Line.okEvent) = ps.flatMap s.pageStream := by
  induction ps generalizing dc with
  | nil => rfl
  | cons p ps ih =>
    rw [List.flatMap_cons, List.map_append, taggedStream_append, taggedStream_pageLines, ih, List.flatMap_cons]

/-- The byte stream of `SHOW`: the enter command, the eight pages, the exit command (R170, R171). -/
theorem taggedStream_showLines (s : State) (dc : Latch) :
    taggedStream dc (s.showLines.map Line.okEvent) =
      (.low, s.params.rmwEnter) :: ((List.range 8).flatMap s.pageStream ++ [(.low, s.params.rmwExit)]) := by
  rw [State.showLines, List.map_append, List.map_append, taggedStream_append, taggedStream_append,
    taggedStream_flatMap_pageLines]
  rfl

/-- The data bytes of page `p` are its slice. -/
theorem State.pageStream_high (s : State) (p : Nat) :
    ((s.pageStream p).filter fun b => b.1 = .high) = (s.pageSlice p).map fun b => (.high, b) := by
  simp [State.pageStream, List.filter_map, Function.comp_def]

/-- Its command bytes are the three that address it. -/
theorem State.pageStream_low (s : State) (p : Nat) :
    ((s.pageStream p).filter fun b => b.1 = .low) =
      [(.low, pageCmd s.params p), (.low, colLowCmd s.params s.orient), (.low, colHighCmd s.params)] := by
  simp [State.pageStream, List.filter_map, Function.comp_def]

theorem State.length_pageStream (s : State) (p : Nat) : (s.pageStream p).length = 131 := by
  simp [State.pageStream, State.pageSlice]

/-- A run of bytes read in two parts (R13). -/
theorem Memory.readBytes_add (a m n : Nat) (fb : List Host.Cell) :
    Memory.readBytes a (m + n) fb = Memory.readBytes a m fb ++ Memory.readBytes (a + m) n fb := by
  induction m generalizing a with
  | zero => simp [Memory.readBytes]
  | succ m ih => rw [Nat.succ_add, Memory.readBytes, ih, Memory.readBytes, List.cons_append, Nat.add_right_comm, Nat.add_assoc]

/-- The first `n` page slices are the first `128 * n` bytes in order (R51, R55). -/
theorem State.flatMap_pageSlice (s : State) (n : Nat) :
    (List.range n).flatMap s.pageSlice = Memory.readBytes 0 (128 * n) s.fb := by
  induction n with
  | zero => rfl
  | succ n ih =>
    rw [List.range_succ, List.flatMap_append, ih, List.flatMap_singleton, Nat.mul_succ, Memory.readBytes_add, Nat.zero_add,
      State.pageSlice]

end Sys2Proof.Machine

namespace Sys2Proof.Proofs

open Sys2Proof.Machine

/-- Settles O33: the stream of the lines between the brackets is that of the eight pages, whose data bytes are their slices. -/
theorem showStreamsTheFramebufferInOrder : Obligations.ShowStreamsTheFramebufferInOrder := by
  intro s t es h hidle hok he
  have hes : es = s.showLines.map Line.okEvent := by
    rw [execShow_endsOk h hidle hok, State.respond_trace, State.afterOk_trace, State.latchOperands_trace] at he
    exact (List.append_cancel_left he).symm
  rw [hes, taggedStream_showLines]
  refine ⟨?_, ?_, ?_, rfl, ?_⟩
  · have hdata := s.flatMap_pageSlice 8
    simp [List.filter_flatMap, List.map_flatMap, State.pageStream_high, Function.comp_def, hdata]
  · simp [List.filter_flatMap, List.length_flatMap, State.pageStream_low]
  · simp [List.length_flatMap, State.length_pageStream]
  · rw [← List.cons_append, List.getLast?_concat]

end Sys2Proof.Proofs
end

section
/-! SUPPORT. `SHOW` over the sink model: what the three address commands of a page leave of the pointers, what the lines of the
first `n` pages leave of the display RAM, and the mirror property (R66, R67). -/

namespace Sys2Proof.Machine

/-- The display column of framebuffer column 0 (R67, R91). -/
def columnShift (o : Orientation) : Nat := if o = .normal then 0 else 4

theorem columnShift_le (o : Orientation) : columnShift o ≤ 4 := by cases o <;> decide

/-- A column the obligation calls outside is none of the 128 that `SHOW` writes. -/
theorem not_in_columns {o : Orientation} {k : Nat} (h : if o = .normal then 128 ≤ k else k < 4 ∨ 132 ≤ k) :
    ¬(columnShift o ≤ k ∧ k < columnShift o + 128) := by
  cases o with
  | normal =>
    have hk : 128 ≤ k := h
    simp only [columnShift, if_true]
    omega
  | reverse =>
    have hk : k < 4 ∨ 132 ≤ k := h
    simp only [columnShift, reduceCtorEq, if_false]
    omega

/-! ### What `Readable` says of either orientation's column-low command (log entry 7) -/

section
variable {c : Params} (hr : c.Readable) (o : Orientation)
include hr

theorem toNat_colLowCmd : (colLowCmd c o).toNat = c.colLowBase.toNat + columnShift o := by
  obtain ⟨-, -, -, -, -, -, -, -, hwrap⟩ := hr
  cases o with
  | normal => rfl
  | reverse => exact Nat.mod_eq_of_lt (show c.colLowBase.toNat + 4 < 2 ^ 8 by omega)

theorem setContrast_ne_colLowCmd : c.setContrast ≠ colLowCmd c o := by
  obtain ⟨-, -, hnormal, hreverse, -⟩ := hr
  cases o with
  | normal => exact hnormal
  | reverse => exact hreverse

theorem colLowCmd_ne_pageCmd {p : Nat} (hp : p < 8) : colLowCmd c o ≠ pageCmd c p := by
  obtain ⟨-, -, -, -, -, hpages, -⟩ := hr
  obtain ⟨hnormal, hreverse, -⟩ := hpages p hp
  cases o with
  | normal => exact hnormal
  | reverse => exact hreverse

end

/-! ### The address of a page -/

/-- The sink after the three address commands of page `p` (R172). -/
def Sink.addressPage (c : Params) (o : Orientation) (p : Nat) (σ : Sink) : Sink :=
  [pageCmd c p, colLowCmd c o, colHighCmd c].foldl (Sink.command c) σ

@[simp] theorem Sink.addressPage_ddram (c : Params) (o : Orientation) (p : Nat) (σ : Sink) :
    (σ.addressPage c o p).ddram = σ.ddram := Sink.foldl_command_ddram c _ σ

/-- A column pointer from its two nibbles. -/
theorem toNat_of_nibbles {sc : BitVec 8} {n : Nat} (hlow : (sc.extractLsb' 0 4).toNat = n)
    (hhigh : (sc.extractLsb' 4 4).toNat = 0) : sc.toNat = n := by
  rw [toNat_slice] at hlow hhigh
  omega

/-- No address command is the contrast command, so the last one leaves no wait (log entry 7). -/
theorem Sink.addressPage_awaitsArg {c : Params} (hr : c.Readable) (o : Orientation) (p : Nat) (σ : Sink) :
    (σ.addressPage c o p).awaitsArg = false := by
  obtain ⟨-, -, -, -, hhigh, -⟩ := hr
  exact Sink.command_awaitsArg_of_ne hhigh _

/-- They put the pointers at the page's first cell, when no contrast argument is awaited (R66, R91). -/
theorem Sink.addressPage_pointers {c : Params} (hl : c.Legal) (hr : c.Readable) (o : Orientation) {p : Nat} (hp : p < 8)
    {σ : Sink} (hw : σ.awaitsArg = false) :
    (σ.addressPage c o p).sp.toNat = p ∧ (σ.addressPage c o p).sc.toNat = columnShift o := by
  have hlowCmd := toNat_colLowCmd hr o
  have hlowNotPage : ∀ q < 8, colLowCmd c o ≠ pageCmd c q := fun q hq => colLowCmd_ne_pageCmd hr o hq
  have hlowWait := setContrast_ne_colLowCmd hr o
  have hshift := columnShift_le o
  obtain ⟨-, hpageWait, -, -, -, hpages, hhighNotLow, hnibble, -⟩ := hr
  have hw₁ := Sink.command_awaitsArg_of_ne (hpageWait p hp) σ
  have hw₂ := Sink.command_awaitsArg_of_ne hlowWait (Sink.command c σ (pageCmd c p))
  obtain ⟨-, -, hpage, -⟩ := (Proofs.commandByteMovesTheSinkPointers c σ (pageCmd c p)).2 hw
  obtain ⟨-, -, -, hlowSp, hlow, -⟩ := (Proofs.commandByteMovesTheSinkPointers c _ (colLowCmd c o)).2 hw₁
  obtain ⟨-, -, -, hhighSp, -, hhighLow, hhigh, -⟩ := (Proofs.commandByteMovesTheSinkPointers c _ (colHighCmd c)).2 hw₂
  have hsp : (σ.addressPage c o p).sp = (Sink.command c σ (pageCmd c p)).sp :=
    (hhighSp fun q hq => (hpages q hq).2.2).trans (hlowSp hlowNotPage)
  have hlowNibble : ((σ.addressPage c o p).sc.extractLsb' 0 4).toNat = columnShift o :=
    hhighLow hhighNotLow ▸ hlow (columnShift o) (by omega) hlowCmd
  have hhighNibble : ((σ.addressPage c o p).sc.extractLsb' 4 4).toNat = 0 :=
    hhigh hnibble 0 (by decide) BitVec.or_zero.symm
  exact ⟨hsp ▸ hpage hl p hp rfl, toNat_of_nibbles hlowNibble hhighNibble⟩

/-! ### The display RAM behind the first pages -/

/-- Cells are read from the display RAM alone. -/
theorem Sink.cell_congr {σ τ : Sink} (h : σ.ddram = τ.ddram) (p k : Nat) : σ.cell p k = τ.cell p k := by
  rw [Sink.cell, Sink.cell, h]

theorem Sink.sized_congr {σ τ : Sink} (h : σ.ddram = τ.ddram) (n : Nat) : σ.sized n = τ.sized n := by
  rw [Sink.sized, Sink.sized, h]

/-- Data bytes start no wait for a contrast argument (log entry 15). -/
theorem Sink.foldl_data_awaitsArg_of_false (c : Params) (bs : List Byte) {σ : Sink} (h : σ.awaitsArg = false) :
    (bs.foldl (Sink.data c) σ).awaitsArg = false := by
  induction bs generalizing σ with
  | nil => exact h
  | cons b bs ih => exact ih rfl

theorem State.afterOk_append (ls ls' : List Line) (s : State) : s.afterOk (ls ++ ls') = (s.afterOk ls).afterOk ls' := by
  induction ls generalizing s with
  | nil => rfl
  | cons l ls ih => exact ih _

/-- The bytes of an answered `SendCommand` reach the sink as commands (R132). -/
theorem State.afterOk_sendCommand_sink (bytes : List Byte) (s : State) :
    (s.afterOk (sendCommand bytes)).sink = bytes.foldl (Sink.command s.params) s.sink := rfl

/-- Those of an answered `SendData` as data (R133). -/
theorem State.afterOk_sendData_sink (bytes : List Byte) (s : State) :
    (s.afterOk (sendData bytes)).sink = bytes.foldl (Sink.data s.params) s.sink := rfl

/-- The lines of page `p` address it, then deliver its slice (R172, R173). -/
theorem State.afterOk_pageLines_sink (s u : State) (hp : u.params = s.params) (p : Nat) :
    (u.afterOk (s.pageLines p)).sink =
      (s.pageSlice p).foldl (Sink.data s.params) (u.sink.addressPage s.params s.orient p) := by
  simp only [State.pageLines, State.afterOk_append, State.afterOk_sendData_sink, State.afterOk_sendCommand_sink,
    State.afterOk_params, hp]
  rfl

/-- In `u` the display RAM holds the first `n` pages of the framebuffer of `s`, and every other cell what it held in `s`; the
next command byte is no contrast argument. -/
structure State.ShowsPages (s : State) (n : Nat) (u : State) : Prop where
  params : u.params = s.params
  sized : u.sink.sized s.params.sinkCols = true
  awaits : u.sink.awaitsArg = false
  cells : ∀ p k, u.sink.cell p k =
    if p < n ∧ columnShift s.orient ≤ k ∧ k < columnShift s.orient + 128 then
      some (s.fbByte (128 * p + (k - columnShift s.orient)))
    else s.sink.cell p k

/-- The enter command brings in no page (R171). -/
theorem State.showsPages_zero {s u : State} (hr : s.params.Readable) (hs : s.sink.sized s.params.sinkCols = true)
    (hp : u.params = s.params) (hu : u.sink = s.sink) : s.ShowsPages 0 (u.afterOk (sendCommand [s.params.rmwEnter])) where
  params := by rw [State.afterOk_params, hp]
  sized := by
    rw [State.afterOk_sendCommand_sink, hp, hu, Sink.sized_congr (Sink.foldl_command_ddram _ _ _), hs]
  awaits := by
    obtain ⟨henter, -⟩ := hr
    rw [State.afterOk_sendCommand_sink, hp]
    exact Sink.command_awaitsArg_of_ne henter u.sink
  cells := fun p k => by
    rw [State.afterOk_sendCommand_sink, hu, if_neg (by omega), Sink.cell_congr (Sink.foldl_command_ddram _ _ _)]

/-- The lines of page `n` bring in that page and no other (R66, R173). -/
theorem State.ShowsPages.succ {s u : State} {n : Nat} (h : s.ShowsPages n u) (hl : s.params.Legal) (hr : s.params.Readable)
    (hcols : 132 ≤ s.params.sinkCols) (hn : n < 8) : s.ShowsPages (n + 1) (u.afterOk (s.pageLines n)) := by
  obtain ⟨hparams, hsized, hawaits, hcells⟩ := h
  have hsink := State.afterOk_pageLines_sink s u hparams n
  obtain ⟨hsp, hsc⟩ := Sink.addressPage_pointers hl hr s.orient hn hawaits
  have hshift := columnShift_le s.orient
  have hlen : (s.pageSlice n).length = 128 := Memory.length_readBytes _ _ _
  have hsized' : (u.sink.addressPage s.params s.orient n).sized s.params.sinkCols = true := by
    rw [Sink.sized_congr (Sink.addressPage_ddram _ _ _ _), hsized]
  refine ⟨by rw [State.afterOk_params, hparams], ?_, ?_, fun p k => ?_⟩
  · rw [hsink]
    exact Sink.foldl_data_sized _ _ _ _ hsized'
  · rw [hsink]
    exact Sink.foldl_data_awaitsArg_of_false _ _ (Sink.addressPage_awaitsArg hr _ _ _)
  · rw [hsink, Sink.cell_foldl_data _ hsized' (by omega) (by omega), hsp, hsc, hlen,
      Sink.cell_congr (Sink.addressPage_ddram _ _ _ _), hcells]
    by_cases hin : p = n ∧ columnShift s.orient ≤ k ∧ k < columnShift s.orient + 128
    · obtain ⟨rfl, hlo, hhi⟩ := hin
      rw [if_pos ⟨rfl, hlo, hhi⟩, if_pos ⟨Nat.lt_succ_self p, hlo, hhi⟩, State.pageSlice, Memory.getElem?_readBytes,
        if_pos (by omega), State.fbByte]
    · rw [if_neg hin]
      exact if_congr (by omega) rfl rfl

/-- The lines of the first `n` pages behind the enter command bring in these pages (R170). -/
theorem State.showsPages_of_lines {s u : State} (hl : s.params.Legal) (hr : s.params.Readable)
    (hcols : 132 ≤ s.params.sinkCols) (hs : s.sink.sized s.params.sinkCols = true) (hp : u.params = s.params)
    (hu : u.sink = s.sink) {n : Nat} (hn : n ≤ 8) :
    s.ShowsPages n (u.afterOk (sendCommand [s.params.rmwEnter] ++ (List.range n).flatMap s.pageLines)) := by
  induction n with
  | zero => exact State.showsPages_zero hr hs hp hu
  | succ n ih =>
    rw [List.range_succ, List.flatMap_append, List.flatMap_singleton, ← List.append_assoc, State.afterOk_append]
    exact (ih (by omega)).succ hl hr hcols (by omega)

end Sys2Proof.Machine

namespace Sys2Proof.Proofs

open Sys2Proof.Machine

/-- Settles O34: all eight pages are brought in, and the exit command leaves the display RAM. -/
theorem showMirrorsTheFramebuffer : Obligations.ShowMirrorsTheFramebuffer := by
  intro s t hl hr hcols hs h hidle hok
  have hpages := State.showsPages_of_lines (u := s.latchOperands (encode .showFb)) hl hr hcols hs rfl rfl (Nat.le_refl 8)
  have hcell : ∀ p k, t.sink.cell p k =
      if p < 8 ∧ columnShift s.orient ≤ k ∧ k < columnShift s.orient + 128 then
        some (s.fbByte (128 * p + (k - columnShift s.orient)))
      else s.sink.cell p k := fun p k => by
    rw [execShow_endsOk h hidle hok, State.respond_sink, State.showLines, State.afterOk_append,
      State.afterOk_sendCommand_sink, Sink.cell_congr (Sink.foldl_command_ddram _ _ _), hpages.cells]
  change (∀ p < 8, ∀ c < 128, t.sink.cell p (c + columnShift s.orient) = _) ∧ _
  refine ⟨fun p hp c hc => ?_, fun p k hk => ?_⟩
  · rw [hcell, if_pos (by omega), Nat.add_sub_cancel]
  · rw [hcell, if_neg fun hin => not_in_columns hk hin.2]

end Sys2Proof.Proofs
end

section
/-! SUPPORT. The encoding (R80 to R87): a request word is its four fields, a row of R81 constrains each field on its own, and a
request decodes exactly when it is the encoding of a well-formed instruction. -/

namespace Sys2Proof

/-! ### A word and its fields -/

/-- A word put together from its own fields is the word (R80). -/
@[simp] theorem requestWord_fields (w : RequestWord) :
    requestWord (fieldOp w) (fieldV w) (fieldA w) (fieldB w) = w := by
  apply BitVec.eq_of_getLsbD_eq
  intro i hi
  simp only [getLsbD_requestWord, fieldOp, fieldV, fieldA, fieldB, BitVec.getLsbD_extractLsb']
  split_ifs with h3 h4 h20
  · simp [h3]
  · rw [show i = 3 by omega]
  · rw [show 4 + (i - 4) = i by omega, decide_eq_true (show i - 4 < 16 by omega), Bool.true_and]
  · rw [show 20 + (i - 20) = i by omega, decide_eq_true (show i - 20 < 16 by omega), Bool.true_and]

theorem requestWord_inj {op op' : BitVec 3} {v v' : Bool} {a a' b b' : Operand} :
    requestWord op v a b = requestWord op' v' a' b' ↔ op = op' ∧ v = v' ∧ a = a' ∧ b = b' := by
  constructor
  · intro h
    exact ⟨by simpa using congrArg fieldOp h, by simpa using congrArg fieldV h, by simpa using congrArg fieldA h,
      by simpa using congrArg fieldB h⟩
  · rintro ⟨rfl, rfl, rfl, rfl⟩
    rfl

/-- Two words are masked field by field. -/
theorem requestWord_and (op op' : BitVec 3) (v v' : Bool) (a a' b b' : Operand) :
    requestWord op v a b &&& requestWord op' v' a' b' = requestWord (op &&& op') (v && v') (a &&& a') (b &&& b') := by
  rw [requestWord, requestWord, requestWord, ← BitVec.ofBool_and_ofBool, ← BitVec.and_append, ← BitVec.and_append,
    ← BitVec.and_append]

/-- Each field has the weight of its lowest bit (R80). -/
theorem toNat_requestWord (op : BitVec 3) (v : Bool) (a b : Operand) :
    (requestWord op v a b).toNat = op.toNat + 2 ^ 3 * v.toNat + 2 ^ 4 * a.toNat + 2 ^ 20 * b.toNat := by
  rw [requestWord, Machine.toNat_concat, Machine.toNat_concat, Machine.toNat_concat, BitVec.toNat_ofBool]
  omega

/-! ### The rows of R81 -/

/-- The row uses field `v`. -/
def Op.takesV : Op → Bool
  | .backlight | .setPixel => true
  | .init | .command | .data | .reset | .clear | .showFb => false

/-- The row uses field `a`. -/
def Op.takesA : Op → Bool
  | .command | .data | .setPixel => true
  | .init | .reset | .backlight | .clear | .showFb => false

/-- The row uses field `b`. -/
def Op.takesB : Op → Bool
  | .setPixel => true
  | .init | .command | .data | .reset | .backlight | .clear | .showFb => false

/-- A row's mask covers the operation number and the fields the row does not use (R81). -/
theorem Op.mask_eq (p : Op) :
    p.mask = requestWord (BitVec.allOnes 3) (!p.takesV) (if p.takesA then 0 else BitVec.allOnes 16)
      (if p.takesB then 0 else BitVec.allOnes 16) := by
  cases p <;> decide

/-- A row's pattern is its operation number and zeros (R81). -/
theorem Op.pattern_eq (p : Op) : p.pattern = requestWord p.number false 0 0 := by cases p <;> decide

/-- Under such a mask a field the row does not use has to be zero, and one it uses may be anything. -/
theorem and_maskOfUnused (a : Operand) (used : Bool) :
    a &&& (if used then 0 else BitVec.allOnes 16) = 0 ↔ (used = false → a = 0) := by
  cases used with
  | true => simp
  | false => rw [if_neg Bool.false_ne_true, BitVec.and_allOnes, eq_self, true_imp_iff]

/-- A word spells a row when it has the row's number and zeros in the fields the row does not use (R81). -/
theorem Op.spelledBy_iff (p : Op) (w : RequestWord) :
    p.spelledBy w = true ↔ fieldOp w = p.number ∧ (p.takesV = false → fieldV w = false) ∧
      (p.takesA = false → fieldA w = 0) ∧ (p.takesB = false → fieldB w = 0) := by
  have hv : (fieldV w && !p.takesV) = false ↔ (p.takesV = false → fieldV w = false) := by cases p.takesV <;> simp
  conv_lhs => rw [← requestWord_fields w]
  rw [Op.spelledBy, beq_iff_eq, Op.mask_eq, Op.pattern_eq, requestWord_and, requestWord_inj, BitVec.and_allOnes, hv,
    and_maskOfUnused, and_maskOfUnused]

@[simp] theorem opOfNumber_number (p : Op) : opOfNumber p.number = p := by cases p <;> rfl

/-- The operation number alone says which row a word can spell (R87). -/
theorem Op.opOfNumber_of_spelledBy {p : Op} {w : RequestWord} (h : p.spelledBy w = true) : opOfNumber (fieldOp w) = p := by
  rw [((p.spelledBy_iff w).1 h).1, opOfNumber_number]

/-- The word a row's used fields make is the word that spells the row. -/
theorem Op.word_of_spelledBy {p : Op} {w : RequestWord} (h : p.spelledBy w = true) :
    requestWord p.number (p.takesV && fieldV w) (if p.takesA then fieldA w else 0) (if p.takesB then fieldB w else 0) = w := by
  obtain ⟨hop, hv, ha, hb⟩ := (p.spelledBy_iff w).1 h
  conv_rhs => rw [← requestWord_fields w]
  refine requestWord_inj.2 ⟨hop.symm, ?_, ?_, ?_⟩
  · cases hu : p.takesV <;> simp [hv, hu]
  · cases hu : p.takesA <;> simp [ha, hu]
  · cases hu : p.takesB <;> simp [hb, hu]

/-- The payload a spelled row asks for (R83). -/
theorem payloadBytes_of_spelledBy {p : Op} {w : RequestWord} (h : p.spelledBy w = true) :
    payloadBytes w = if p = .command ∨ p = .data then (fieldA w).toNat else 0 := by
  rw [payloadBytes, Op.opOfNumber_of_spelledBy h]
  cases p <;> rfl

/-! ### The decoder -/

/-- The instruction a row reads from a request (R82). -/
def Op.instrOf (r : Request) : Op → Instr
  | .init => .init
  | .command => .command r.pay
  | .data => .data r.pay
  | .reset => .reset
  | .backlight => .backlight (fieldV r.word)
  | .clear => .clear
  | .setPixel => .setPixel (fieldA r.word) (fieldB r.word) (fieldV r.word)
  | .showFb => .showFb

@[simp] theorem Op.op_instrOf (r : Request) (p : Op) : (p.instrOf r).op = p := by cases p <;> rfl

/-- A word that spells a row decodes by that row, when the payload has its length (R86, R87). -/
theorem decode_of_spelledBy {r : Request} {p : Op} (h : p.spelledBy r.word = true) :
    decode r = if r.pay.length = payloadBytes r.word then .ok (p.instrOf r) else .error .payloadLength := by
  simp only [decode, Op.opOfNumber_of_spelledBy h, h, if_true, exactly_iff]
  congr 1
  cases p <;> rfl

/-- A word that spells no row is invalid (R86). -/
theorem decode_of_not_spelledBy {r : Request} (h : ∀ p : Op, p.spelledBy r.word = false) :
    decode r = .error .invalidWord := by
  simp [decode, h]

/-- A request that decodes spells a row, has the row's payload, and reads as the row says (R87). -/
theorem decode_ok {r : Request} {i : Instr} (h : decode r = .ok i) :
    i.op.spelledBy r.word = true ∧ r.pay.length = payloadBytes r.word ∧ i = i.op.instrOf r := by
  by_cases hp : ∃ p : Op, p.spelledBy r.word = true
  · obtain ⟨p, hp⟩ := hp
    rw [decode_of_spelledBy hp] at h
    split at h
    · cases h
      rw [Op.op_instrOf]
      exact ⟨hp, ‹_›, rfl⟩
    · cases h
  · rw [decode_of_not_spelledBy (by simpa using hp)] at h
    cases h

/-! ### The two round trips -/

/-- The word an instruction is encoded as spells its row and asks for the payload beside it (R81, R83). -/
theorem encode_tableRow (i : Instr) : Laws.TableRow.Statement i := by
  cases i with
  | init => exact Laws.TableRow.init
  | command bytes => exact Laws.TableRow.command bytes
  | data bytes => exact Laws.TableRow.data bytes
  | reset => exact Laws.TableRow.reset
  | backlight on => exact Laws.TableRow.backlight on
  | clear => exact Laws.TableRow.clear
  | setPixel x y value => exact Laws.TableRow.setPixel x y value
  | showFb => exact Laws.TableRow.showFb

/-- A row reads the operands back that the encoder wrote (R82). -/
theorem instrOf_encode (i : Instr) : i.op.instrOf (encode i) = i := by
  cases i <;> simp [Instr.op, Op.instrOf, encode]

theorem decode_encode {i : Instr} (hw : i.wf = true) : decode (encode i) = .ok i := by
  obtain ⟨hspell, -, hpay⟩ := encode_tableRow i hw
  rw [decode_of_spelledBy hspell, if_pos hpay.symm, instrOf_encode]

/-- The encoder writes back the request a row was read from: its unused fields are zero, and there is no byte beyond the payload
it asks for (R81, R83). -/
theorem encode_instrOf {r : Request} {p : Op} (h : p.spelledBy r.word = true) (hpay : r.pay.length = payloadBytes r.word) :
    encode (p.instrOf r) = r := by
  obtain ⟨w, pay⟩ := r
  have hw : _ = w := Op.word_of_spelledBy h
  rw [payloadBytes_of_spelledBy h] at hpay
  cases p with
  | command | data =>
    have hlen : pay.length = (fieldA w).toNat := hpay
    have ha : BitVec.ofNat 16 pay.length = fieldA w := by rw [hlen, BitVec.ofNat_toNat, BitVec.setWidth_eq]
    simpa [Op.instrOf, encode, ha, Op.takesV, Op.takesA, Op.takesB] using hw
  | _ =>
    obtain rfl : pay = [] := List.eq_nil_of_length_eq_zero hpay
    simpa [Op.instrOf, encode, Op.takesV, Op.takesA, Op.takesB] using hw

/-- A payload as long as a request asks for fits the length field (R83). -/
theorem wf_instrOf {r : Request} {p : Op} (h : p.spelledBy r.word = true) (hpay : r.pay.length = payloadBytes r.word) :
    (p.instrOf r).wf = true := by
  rw [payloadBytes_of_spelledBy h] at hpay
  have hlt := (fieldA r.word).isLt
  cases p with
  | command | data =>
    have hlen : r.pay.length = (fieldA r.word).toNat := hpay
    exact (atMost_iff r.pay 65535).2 (by omega)
  | _ => rfl

end Sys2Proof

namespace Sys2Proof.Proofs

/-- Settles O1: the encoded word spells the instruction's row, and the row reads the operands back. -/
theorem decodeOfEncodeIsTheInstruction : Obligations.DecodeOfEncodeIsTheInstruction := fun _ hw => decode_encode hw

/-- Settles O2: a request that decodes is read by the row it spells, which leaves no field of it free. -/
theorem encodeOfDecodeIsTheRequest : Obligations.EncodeOfDecodeIsTheRequest := by
  intro r i h
  obtain ⟨hspell, hpay, hi⟩ := decode_ok h
  rw [hi]
  exact ⟨encode_instrOf hspell hpay, wf_instrOf hspell hpay⟩

/-- Settles O3: a word taken apart is a word put together from its fields. -/
theorem requestWordFieldsStandAtTheirBits : Obligations.RequestWordFieldsStandAtTheirBits := by
  refine ⟨fun w => ?_, toNat_requestWord⟩
  conv_lhs => rw [← requestWord_fields w]
  exact toNat_requestWord _ _ _ _

/-- Settles O4: the operation number of a word names the one row it can spell. -/
theorem wordsSpellAtMostOneRow : Obligations.WordsSpellAtMostOneRow := by
  have hunique : ∀ (w : RequestWord) (p q : Op), p.spelledBy w = true → q.spelledBy w = true → p = q := fun w p q hp hq =>
    (Op.opOfNumber_of_spelledBy hp).symm.trans (Op.opOfNumber_of_spelledBy hq)
  refine ⟨hunique, fun r i h p => ?_, fun r => ⟨fun h p => ?_, decode_of_not_spelledBy⟩⟩
  · obtain ⟨hspell, -, -⟩ := decode_ok h
    exact ⟨fun hp => hunique r.word p i.op hp hspell, fun hp => hp ▸ hspell⟩
  · by_contra hp
    rw [decode_of_spelledBy (Bool.eq_true_of_not_eq_false hp)] at h
    split at h <;> cases h

/-- Settles O5: a spelled row's decoding turns on the payload's length alone. -/
theorem payloadMustBeFullySupplied : Obligations.PayloadMustBeFullySupplied := by
  intro r p hp
  rw [decode_of_spelledBy hp, ← payloadBytes_of_spelledBy hp]
  by_cases hlen : r.pay.length = payloadBytes r.word <;> simp [hlen]

/-- Settles O6: each word is its instruction's encoding. -/
theorem writtenWordsDecode : Obligations.WrittenWordsDecode :=
  ⟨decode_encode (i := .init) rfl, decode_encode (i := .command [0xA6]) rfl, decode_encode (i := .data [0xFF, 0x00]) rfl,
    decode_encode (i := .reset) rfl, decode_encode (i := .backlight true) rfl, decode_encode (i := .backlight false) rfl,
    decode_encode (i := .clear) rfl, decode_encode (i := .setPixel 5 10 true) rfl,
    decode_encode (i := .setPixel 127 63 false) rfl, decode_encode (i := .showFb) rfl⟩

end Sys2Proof.Proofs
end

section
/-! SUPPORT. The response word (R84, R85) and the composed command bytes (R89 to R91, R151 to R153). -/

namespace Sys2Proof.Machine

/-! ### Response words -/

/-- Each field has the weight of its lowest bit (R84). -/
theorem toNat_responseWord (st : BitVec 3) (ex ey : Operand) :
    (responseWord st ex ey).toNat = st.toNat + 2 ^ 3 * ex.toNat + 2 ^ 19 * ey.toNat := by
  rw [responseWord, toNat_concat, toNat_concat]
  omega

@[simp] theorem rspX_responseWord (st : BitVec 3) (ex ey : Operand) : rspX (responseWord st ex ey) = ex := by
  apply BitVec.eq_of_toNat_eq
  rw [rspX, toNat_slice, toNat_responseWord]
  omega

@[simp] theorem rspY_responseWord (st : BitVec 3) (ex ey : Operand) : rspY (responseWord st ex ey) = ey := by
  apply BitVec.eq_of_toNat_eq
  rw [rspY, toNat_slice, toNat_responseWord]
  omega

/-- The response word of a status, by its fields (R84, R200). -/
theorem Status.word_eq (st : Status) (x y : Operand) :
    st.word x y = responseWord st.code (if st = .outOfBounds then x else 0) (if st = .outOfBounds then y else 0) := by
  cases st <;> rfl

/-! ### Composed bytes -/

/-- Under a clear base the page stands in the low three bits (R91). -/
theorem pageCmd_low {c : Params} (h : c.pageBase &&& 0x07 = 0) (p : Nat) :
    (pageCmd c p).extractLsb' 0 3 = BitVec.ofNat 3 p := by
  have hbase : c.pageBase.extractLsb' 0 3 = 0#3 :=
    calc c.pageBase.extractLsb' 0 3
        = c.pageBase.extractLsb' 0 3 &&& (0x07 : Byte).extractLsb' 0 3 := BitVec.and_allOnes.symm
      _ = (c.pageBase &&& 0x07).extractLsb' 0 3 := BitVec.extractLsb'_and.symm
      _ = 0#3 := by rw [h]; rfl
  have hpage : (BitVec.ofNat 8 p).extractLsb' 0 3 = BitVec.ofNat 3 p := by
    apply BitVec.eq_of_toNat_eq
    rw [toNat_slice, BitVec.toNat_ofNat, BitVec.toNat_ofNat]
    omega
  rw [pageCmd, BitVec.extractLsb'_or, hbase, hpage, BitVec.zero_or]

/-- A page below 8 leaves the base's other five bits (R91). -/
theorem pageCmd_high (c : Params) {p : Nat} (hp : p < 8) : (pageCmd c p).extractLsb' 3 5 = c.pageBase.extractLsb' 3 5 := by
  have hpage : (BitVec.ofNat 8 p).extractLsb' 3 5 = 0#5 := by
    apply BitVec.eq_of_toNat_eq
    rw [toNat_slice, BitVec.toNat_ofNat, BitVec.toNat_ofNat]
    omega
  rw [pageCmd, BitVec.extractLsb'_or, hpage, BitVec.or_zero]

end Sys2Proof.Machine

namespace Sys2Proof.Proofs

open Sys2Proof.Machine

/-- Settles O7: every response word is made of its status code and two fields, and gives them back. -/
theorem responseWordFieldsStandAtTheirBits : Obligations.ResponseWordFieldsStandAtTheirBits := by
  intro st x y
  rw [Status.word_eq, rspStatus_responseWord, rspX_responseWord, rspY_responseWord, toNat_responseWord]
  refine ⟨?_, rfl, rfl, rfl⟩
  cases st <;> rfl

/-- Settles O8: the four bytes are the document's. -/
theorem orientationFlipsBothDirections : Obligations.OrientationFlipsBothDirections := ⟨⟨rfl, rfl⟩, rfl, rfl⟩

/-- Settles O9: byte 4 is the base itself, because line 0 adds no bit; the others are the parameters as they stand. -/
theorem initBytesInFixedOrder : Obligations.InitBytesInFixedOrder := by
  intro c o b
  have hline : startLineCmd c = c.startLineBase := BitVec.or_zero
  rw [← hline]
  cases o <;> cases b <;> rfl

/-- Settles O10: the base and the page share no bit of a page-select byte, and the shift of `Reverse` is a sum of bytes. -/
theorem showAddressBytes : Obligations.ShowAddressBytes := by
  rintro c ⟨-, hbase⟩
  refine ⟨fun p hp => ⟨?_, pageCmd_high c hp⟩, rfl, BitVec.toNat_add _ _, rfl⟩
  rw [pageCmd_low hbase, BitVec.toNat_ofNat, Nat.mod_eq_of_lt hp]

end Sys2Proof.Proofs
end

section
/-! SUPPORT. What becomes of a request: refused by name (R86, R219), or ended with one response (R84, R248), and a list of
pixel requests drawn by the host (R95). -/

namespace Sys2Proof.Machine

/-! ### Refusals -/

/-- An idle block refuses a request that does not decode (R86). -/
theorem step_of_decode_error {s : State} {r : Request} {rs : List Request} {e : DecodeError} (hs : s.seq = .idle)
    (hr : s.reqs = r :: rs) (hd : decode r = .error e) : step s = .refused (refusalOf r e) := by
  unfold step State.runNextRequest
  rw [hs]
  simp only [hr, hd]

/-! ### Responses -/

/-- One response word stands between two states, and it is the one on the port (R84). -/
def State.Answered (s t : State) : Prop := t.seq = .idle ∧ t.responses = s.responses ++ [t.rsp]

/-- The end of an operation answers it. -/
theorem State.respond_answered {s u : State} (h : u.responses = s.responses) (st : Status) : s.Answered (u.respond st) :=
  ⟨rfl, by rw [State.respond_responses, State.respond_rsp, h]⟩

/-- A run of lines ends with its one response, or waits without an answer left and with none (R84, R213). -/
theorem State.runFrom_answers {op : Op} {n : Nat} {ls : List Line} {s t : State} (ht : t = s.runFrom op n ls) :
    s.Answered t ∨ (t.busy = true ∧ t.responses = s.responses ∧ t.rsp = s.rsp ∧ t.answers = []) := by
  obtain ⟨rest, -, hr⟩ | ⟨k, l, rest, -, -, hr⟩ | ⟨k, hk, ha, hr⟩ := State.runFrom_cases op n ls s <;> rw [ht, hr]
  · exact .inl (State.respond_answered (by simp) .ok)
  · exact .inl (State.respond_answered (by simp) _)
  · have hused : (s.afterOk (ls.take k)).answers = [] := by simp [ha, hk.le]
    exact .inr ⟨rfl, State.afterOk_responses _ s, State.afterOk_rsp _ s, hused⟩

/-! ### The drawing sink -/

/-- What a `SET_PIXEL` answers: `OK`, or `OutOfBounds` with its own pair (R111, R200). -/
def pixelAnswer (p : Operand × Operand × Bool) : ResponseWord := if inBounds p.1 p.2.1 then 0 else responseWord 3 p.1 p.2.1

/-- What a `SET_PIXEL` makes of the framebuffer (R110, R112). -/
def pixelStore (m : List Host.Cell) (p : Operand × Operand × Bool) : List Host.Cell :=
  if inBounds p.1 p.2.1 then
    Memory.write (byteOffset p.1 p.2.1) (withBit (Memory.read (byteOffset p.1 p.2.1) m) (bitPosition p.2.1) p.2.2) m
  else m

/-- That answer is the word of one of two statuses (R85). -/
theorem pixelAnswer_eq (p : Operand × Operand × Bool) :
    pixelAnswer p = (if inBounds p.1 p.2.1 then Status.ok else Status.outOfBounds).word p.1 p.2.1 := by
  rw [pixelAnswer]
  cases inBounds p.1 p.2.1 <;> rfl

/-- The status tells whether the pixel was off the screen (R85). -/
theorem rspStatus_pixelAnswer (p : Operand × Operand × Bool) :
    rspStatus (pixelAnswer p) = Status.outOfBounds.code ↔ inBounds p.1 p.2.1 = false := by
  rw [pixelAnswer_eq, rspStatus_word]
  cases inBounds p.1 p.2.1 <;> decide

/-- An idle block answers a `SET_PIXEL` at once and is idle again (R110). -/
theorem execSetPixel_answers {s : State} (hs : s.seq = .idle) (p : Operand × Operand × Bool) :
    ∃ t, execSetPixel p.1 p.2.1 p.2.2 s = .next t ∧ t.seq = .idle ∧ t.rsp = pixelAnswer p ∧
      t.responses = s.responses ++ [pixelAnswer p] ∧ t.fb = pixelStore s.fb p := by
  obtain ⟨x, y, v⟩ := p
  rw [pixelAnswer_eq, pixelStore]
  cases h : inBounds x y with
  | true => exact ⟨_, execSetPixel_inBounds x y v hs h, by simp [encode, State.fbByte, Status.word]⟩
  | false => exact ⟨_, execSetPixel_outOfBounds x y v hs h, by simp [encode]⟩

/-- With `skip` the drawing goes on behind any answer (R95). -/
theorem State.draw_skip_cons {s t : State} {p : Operand × Operand × Bool} (h : execSetPixel p.1 p.2.1 p.2.2 s = .next t)
    (ps : List (Operand × Operand × Bool)) : State.draw .skip (p :: ps) s = State.draw .skip ps t := by
  obtain ⟨x, y, v⟩ := p
  rw [State.draw, h]
  exact if_neg fun hstop => nomatch hstop.1

/-- With `stop` it ends behind a pair off the screen (R95). -/
theorem State.draw_stop_cons {s t : State} {p : Operand × Operand × Bool} (h : execSetPixel p.1 p.2.1 p.2.2 s = .next t)
    (hr : t.rsp = pixelAnswer p) (ps : List (Operand × Operand × Bool)) :
    State.draw .stop (p :: ps) s = if inBounds p.1 p.2.1 then State.draw .stop ps t else .next t := by
  have hoff := rspStatus_pixelAnswer p
  rw [← hr] at hoff
  obtain ⟨x, y, v⟩ := p
  rw [State.draw, h]
  simp only [hoff, true_and]
  cases inBounds x y <;> rfl

/-- With `skip` every pair is answered and stored (R95). -/
theorem State.draw_skip (ps : List (Operand × Operand × Bool)) {s : State} (hs : s.seq = .idle) :
    ∃ t, State.draw .skip ps s = .next t ∧ t.seq = .idle ∧ t.responses = s.responses ++ ps.map pixelAnswer ∧
      t.fb = ps.foldl pixelStore s.fb := by
  induction ps generalizing s with
  | nil => exact ⟨s, rfl, hs, by simp, rfl⟩
  | cons p ps ih =>
    obtain ⟨u, hu, hidle, -, hresp, hfb⟩ := execSetPixel_answers hs p
    obtain ⟨t, ht, htidle, htresp, htfb⟩ := ih hidle
    refine ⟨t, ?_, htidle, ?_, ?_⟩
    · rw [State.draw_skip_cons hu, ht]
    · rw [htresp, hresp, List.append_assoc, List.map_cons, List.singleton_append]
    · rw [htfb, hfb, List.foldl_cons]

/-- With `stop` the list is cut behind its first pair off the screen (R95). -/
theorem State.draw_stop (ps : List (Operand × Operand × Bool)) {s : State} (hs : s.seq = .idle) :
    State.draw .stop ps s = State.draw .skip (ps.take ((ps.takeWhile fun p => inBounds p.1 p.2.1).length + 1)) s := by
  induction ps generalizing s with
  | nil => rfl
  | cons p ps ih =>
    obtain ⟨u, hu, hidle, hrsp, -⟩ := execSetPixel_answers hs p
    rw [List.take_succ_cons, State.draw_skip_cons hu, State.draw_stop_cons hu hrsp, List.takeWhile_cons]
    cases inBounds p.1 p.2.1 with
    | true => exact ih hidle
    | false => rfl

end Sys2Proof.Machine

namespace Sys2Proof.Proofs

open Sys2Proof.Machine

/-- Settles O42: a run of lines ends or waits, and the two operations without port events end at once. -/
theorem oneResponsePerRequest : Obligations.OneResponsePerRequest := by
  intro i s t h
  obtain ⟨-, -, ⟨-, rfl⟩ | ⟨x, y, v, -, -, rfl⟩ | ⟨x, y, v, -, -, rfl⟩ | ⟨-, rfl⟩⟩ := exec_cases h
  · exact State.runFrom_answers (s := s.latchOperands (encode i)) rfl
  all_goals exact .inl (State.respond_answered (by simp) _)

/-- Settles O49: the decoder's two rejections, taken over by the step. -/
theorem requestThatSpellsNothingIsRefused : Obligations.RequestThatSpellsNothingIsRefused := by
  refine fun s r rs hs hr => ⟨fun h => step_of_decode_error hs hr (decode_of_not_spelledBy h), ?_⟩
  rintro ⟨p, hp⟩ hlen
  exact step_of_decode_error hs hr ((decode_of_spelledBy hp).trans (if_neg hlen))

/-- Settles O50: every operation begins by accepting its request, which a busy block refuses. -/
theorem requestWhileBusyIsRefused : Obligations.RequestWhileBusyIsRefused := by
  refine fun s hb => ⟨fun i => ?_, fun r => by rw [State.present, hb, Bool.true_or]⟩
  obtain ⟨body, he⟩ := exec_is_onAccept i s
  rw [he, onAccept_busy hb]

/-- Settles O57: `skip` goes through the whole list, `stop` through its part up to the first pair off the screen. -/
theorem drawFollowsItsPolicy : Obligations.DrawFollowsItsPolicy :=
  fun _ ps hs => ⟨State.draw_skip ps hs, State.draw_stop ps hs⟩

end Sys2Proof.Proofs
end

section
/-! SUPPORT. The framebuffer after `SET_PIXEL` and `CLEAR` (R110 to R116): what a canonical memory reads determines it, and a
pixel store changes what one bit reads. -/

namespace Sys2Proof.Machine

/-! ### Canonical memories -/

theorem Memory.wfFrom_cons {lo k : Nat} {v : Byte} {m : List Host.Cell} :
    Memory.wfFrom lo ((k, v) :: m) = true ↔
      lo ≤ k ∧ k < Config.fbLen ∧ v ≠ Config.unlistedByte ∧ Memory.wfFrom (k + 1) m = true := by
  simp only [Memory.wfFrom, Bool.and_eq_true, decide_eq_true_eq, and_assoc]

/-- A canonical memory lists nothing outside the framebuffer (R50). -/
theorem Memory.read_outside {lo a : Nat} {m : List Host.Cell} (hm : Memory.wfFrom lo m = true) (ha : Config.fbLen ≤ a) :
    Memory.read a m = Config.unlistedByte := by
  induction m generalizing lo with
  | nil => rfl
  | cons c m ih =>
    obtain ⟨-, hk, -, hm⟩ := Memory.wfFrom_cons.1 hm
    rw [Memory.read_cons, if_neg (by omega), ih hm]

/-- The head of a canonical memory is the lowest offset at which it reads another byte than an unlisted one. -/
theorem Memory.head_le {lo k a : Nat} {v : Byte} {m : List Host.Cell} (hm : Memory.wfFrom lo ((k, v) :: m) = true)
    (ha : Memory.read a ((k, v) :: m) ≠ Config.unlistedByte) : k ≤ a := by
  obtain ⟨-, hrest⟩ := Memory.wfFrom_cons.1 hm
  by_contra hlt
  exact ha (Memory.read_below (Memory.wfFrom_cons.2 ⟨le_rfl, hrest⟩) (Nat.lt_of_not_le hlt))

/-- Two canonical memories that read alike are the same list. -/
theorem Memory.eq_of_read_eq {lo : Nat} {m m' : List Host.Cell} (hm : Memory.wfFrom lo m = true)
    (hm' : Memory.wfFrom lo m' = true) (h : ∀ a, Memory.read a m = Memory.read a m') : m = m' := by
  induction m generalizing lo m' with
  | nil =>
    cases m' with
    | nil => rfl
    | cons c' m' =>
      obtain ⟨-, -, hv', -⟩ := Memory.wfFrom_cons.1 hm'
      exact absurd ((h c'.1).trans (if_pos rfl)).symm hv'
  | cons c m ih =>
    obtain ⟨k, v⟩ := c
    obtain ⟨-, -, hv, ht⟩ := Memory.wfFrom_cons.1 hm
    have hread : Memory.read k ((k, v) :: m) = v := if_pos rfl
    cases m' with
    | nil => exact absurd (hread.symm.trans (h k)) hv
    | cons c' m' =>
      obtain ⟨k', v'⟩ := c'
      obtain ⟨-, -, hv', ht'⟩ := Memory.wfFrom_cons.1 hm'
      have hread' : Memory.read k' ((k', v') :: m') = v' := if_pos rfl
      obtain rfl : k = k' :=
        Nat.le_antisymm (Memory.head_le hm (by rwa [h, hread'])) (Memory.head_le hm' (by rwa [← h, hread]))
      obtain rfl : v = v' := hread.symm.trans ((h k).trans hread')
      rw [ih ht ht' fun a => ?_]
      by_cases ha : a < k + 1
      · rw [Memory.read_below ht ha, Memory.read_below ht' ha]
      · have hne : a ≠ k := by omega
        have hcell := h a
        rwa [Memory.read_cons, if_neg hne, Memory.read_cons, if_neg hne] at hcell

/-- Two canonical framebuffers with the same bits are the same list (R54). -/
theorem Memory.eq_of_bits_eq {m m' : List Host.Cell} (hm : Memory.wf m = true) (hm' : Memory.wf m' = true)
    (h : ∀ a i, (Memory.read a m).getLsbD i = (Memory.read a m').getLsbD i) : m = m' :=
  Memory.eq_of_read_eq hm hm' fun a => BitVec.eq_of_getLsbD_eq fun i _ => h a i

/-! ### One pixel stored -/

/-- Bit `i` of `FB[a]` is the bit of the pixel (x, y) of the screen (R52, R111). -/
abbrev PixelAt (x y : Operand) (a i : Nat) : Prop := inBounds x y = true ∧ a = byteOffset x y ∧ i = bitPosition y

theorem bitPosition_lt (y : Operand) : bitPosition y < 8 := Nat.mod_lt _ (by decide)

/-- A bit of the framebuffer belongs to one pixel (R52). -/
theorem PixelAt.unique {x y x' y' : Operand} {a i : Nat} (h : PixelAt x y a i) (h' : PixelAt x' y' a i) :
    x = x' ∧ y = y' := by
  obtain ⟨hb, ha, hi⟩ := h
  obtain ⟨hb', ha', hi'⟩ := h'
  have hx := ((inBounds_iff x y).1 hb).1
  have hx' := ((inBounds_iff x' y').1 hb').1
  exact translation_injective (by omega) (by omega) (ha.symm.trans ha') (hi.symm.trans hi')

theorem pixelStore_wf {m : List Host.Cell} (hm : Memory.wf m = true) (p : Operand × Operand × Bool) :
    Memory.wf (pixelStore m p) = true := by
  rw [pixelStore]
  split
  · exact Memory.wf_write hm (byteOffset_lt ‹_›)
  · exact hm

theorem pixelStore_inBounds {x y : Operand} (h : inBounds x y = true) (m : List Host.Cell) (v : Bool) :
    pixelStore m (x, y, v) = Memory.write (byteOffset x y) (withBit (Memory.read (byteOffset x y) m) (bitPosition y) v) m :=
  if_pos h

/-- A pixel store gives the pixel's bit its value and leaves every other bit (R112). -/
theorem getLsbD_read_pixelStore {m : List Host.Cell} (hm : Memory.wf m = true) (x y : Operand) (v : Bool) (a i : Nat) :
    (Memory.read a (pixelStore m (x, y, v))).getLsbD i = if PixelAt x y a i then v else (Memory.read a m).getLsbD i := by
  by_cases hb : inBounds x y = true
  · rw [pixelStore_inBounds hb, Memory.read_write_of_wf hm]
    by_cases ha : a = byteOffset x y
    · rw [if_pos ha, getLsbD_withBit _ (bitPosition_lt y), ha]
      simp only [PixelAt, hb, true_and]
    · rw [if_neg ha, if_neg fun ⟨_, h, _⟩ => ha h]
  · rw [pixelStore, if_neg hb, if_neg fun ⟨h, _⟩ => hb h]

/-- Of two stores to one pixel the later one stays (R113). -/
theorem pixelStore_pixelStore_same {m : List Host.Cell} (hm : Memory.wf m = true) (x y : Operand) (v w : Bool) :
    pixelStore (pixelStore m (x, y, v)) (x, y, w) = pixelStore m (x, y, w) := by
  have hv := pixelStore_wf hm (x, y, v)
  refine Memory.eq_of_bits_eq (pixelStore_wf hv _) (pixelStore_wf hm _) fun a i => ?_
  rw [getLsbD_read_pixelStore hv, getLsbD_read_pixelStore hm, getLsbD_read_pixelStore hm]
  split <;> rfl

/-- Stores to two pixels commute, because no bit belongs to both (R113). -/
theorem pixelStore_comm {m : List Host.Cell} (hm : Memory.wf m = true) {x y x' y' : Operand} (hne : x ≠ x' ∨ y ≠ y')
    (v v' : Bool) :
    pixelStore (pixelStore m (x, y, v)) (x', y', v') = pixelStore (pixelStore m (x', y', v')) (x, y, v) := by
  have hv := pixelStore_wf hm (x, y, v)
  have hv' := pixelStore_wf hm (x', y', v')
  refine Memory.eq_of_bits_eq (pixelStore_wf hv _) (pixelStore_wf hv' _) fun a i => ?_
  rw [getLsbD_read_pixelStore hv, getLsbD_read_pixelStore hm, getLsbD_read_pixelStore hv', getLsbD_read_pixelStore hm]
  by_cases h : PixelAt x y a i
  · have h' : ¬ PixelAt x' y' a i := fun h' => not_and_or.2 hne (h.unique h')
    rw [if_neg h', if_pos h, if_pos h]
  · rw [if_neg h, if_neg h]

/-- `SET_PIXEL`, on the screen or off it, leaves in `FB` what the pixel store makes of it (R110, R111). -/
theorem exec_setPixel_fb {s t : State} {x y : Operand} {v : Bool} (h : exec (.setPixel x y v) s = .next t) :
    t.fb = pixelStore s.fb (x, y, v) := by
  obtain ⟨u, hu, -, -, -, hfb⟩ := execSetPixel_answers (exec_accepts h).1 (x, y, v)
  obtain rfl : u = t := Host.Outcome.next.inj (hu.symm.trans h)
  exact hfb

/-- An operation that stores and returns `OK`, field by field (R84). -/
theorem State.storeFb_respond_ok (m : List Host.Cell) (s : State) :
    (s.storeFb m).respond .ok = { s with fb := m, rsp := 0, responses := s.responses ++ [0], seq := .idle } := rfl

/-! ### The whole buffer cleared, and the bounds -/

/-- A canonical memory cleared reads 0 everywhere (R116). -/
theorem Memory.read_clear {m : List Host.Cell} (hm : Memory.wf m = true) (a : Nat) :
    Memory.read a (Memory.writeBytes 0 zeroBytes m) = 0 := by
  rw [Memory.read_writeBytes hm (by rw [length_zeroBytes])]
  split
  · exact getD_zeroBytes _
  · next h =>
    rw [length_zeroBytes] at h
    exact Memory.read_outside hm (by simp only [Config.fbLen]; omega)

/-- The bits from `k` up are all clear in the words below `2 ^ k`. -/
theorem slice_eq_zero_iff {w : Nat} (x : BitVec w) {k len : Nat} (hw : k + len = w) :
    x.extractLsb' k len = 0#len ↔ x.toNat < 2 ^ k := by
  have hlt : x.toNat / 2 ^ k < 2 ^ len := Nat.div_lt_of_lt_mul (by rw [← pow_add, hw]; exact x.isLt)
  rw [← BitVec.toNat_inj, toNat_slice, Nat.mod_eq_of_lt hlt, BitVec.toNat_zero, Nat.div_eq_zero_iff_lt (by positivity)]

end Sys2Proof.Machine

namespace Sys2Proof.Proofs

open Sys2Proof.Machine

/-- Settles O17: the store of the pixel, read bit by bit. -/
theorem setPixelWritesExactlyItsBit : Obligations.SetPixelWritesExactlyItsBit := by
  intro s x y value hs hm hx hy
  have hb : inBounds x y = true := (inBounds_iff x y).2 ⟨hx, hy⟩
  have hbit := getLsbD_read_pixelStore hm x y value
  refine ⟨pixelStore s.fb (x, y, value), ?_, ?_, fun i hi => ?_, fun a ha => ?_⟩
  · rw [execSetPixel_inBounds x y value hs hb, pixelStore_inBounds hb, State.storeFb_respond_ok,
      State.latchOperands_responses, State.fbByte]
  · rw [hbit, if_pos ⟨hb, rfl, rfl⟩]
  · rw [hbit, if_neg fun ⟨_, _, h⟩ => hi h, State.fbByte]
  · refine BitVec.eq_of_getLsbD_eq fun i _ => ?_
    rw [hbit, if_neg fun ⟨_, h, _⟩ => ha h, State.fbByte]

/-- Settles O18: the bounds check fails, and the operation only answers, with the operands it latched. -/
theorem setPixelOutOfBoundsCarriesThePair : Obligations.SetPixelOutOfBoundsCarriesThePair := by
  intro s x y value hs hoff
  have hb : inBounds x y = false := by
    rw [Bool.eq_false_iff, ne_eq, inBounds_iff]
    omega
  rw [execSetPixel_outOfBounds x y value hs hb, State.respond]
  simp [encode, Status.word, Status.code]

/-- Settles O19: both ends are stores to one pixel, of which the later one stays. -/
theorem laterSetPixelWins : Obligations.LaterSetPixelWins := by
  intro s t u r x y v w _ hm ht hu hr
  have hfirst := exec_setPixel_fb ht
  have halone := exec_setPixel_fb hr
  have hlater : u.fb = r.fb := by
    rw [exec_setPixel_fb hu, hfirst, halone, pixelStore_pixelStore_same hm]
  refine ⟨hlater, ?_⟩
  rintro rfl
  rw [hlater, halone, hfirst]

/-- Settles O20: two pixels share no bit. -/
theorem setPixelsOnDifferentPixelsCommute : Obligations.SetPixelsOnDifferentPixelsCommute := by
  intro s t₁ u₁ t₂ u₂ x y x' y' v v' _ hm hne ht₁ hu₁ ht₂ hu₂
  rw [exec_setPixel_fb hu₁, exec_setPixel_fb ht₁, exec_setPixel_fb hu₂, exec_setPixel_fb ht₂,
    pixelStore_comm hm hne]

/-- Settles O21: the bytes of `FB` are written with zeros, and outside `FB` nothing is listed. -/
theorem clearZeroesTheWholeBuffer : Obligations.ClearZeroesTheWholeBuffer := by
  intro s hs hm
  refine ⟨Memory.writeBytes 0 zeroBytes s.fb, ?_, Memory.read_clear hm⟩
  rw [execClear_idle hs, State.storeFb_respond_ok, State.latchOperands_responses]

/-- Settles O16: a coordinate is on the screen when its bits above the screen's are clear. -/
theorem boundsCheckByHighBits : Obligations.BoundsCheckByHighBits := by
  intro x y
  refine ⟨inBounds_iff x y, (inBounds_iff x y).trans (and_congr ?_ ?_)⟩
  · exact (slice_eq_zero_iff x (k := 7) (len := 9) rfl).symm
  · exact (slice_eq_zero_iff y (k := 6) (len := 10) rfl).symm

end Sys2Proof.Proofs
end

section
/-! SUPPORT. How an operation with port events ends once the environment has answered enough: behind all its lines, or at its
first failed one; and the statements about `COMMAND`, `DATA`, `RESET` and the first failed event (R132 to R139). -/

namespace Sys2Proof.Machine

/-! ### The ends of an operation with port events -/

/-- Every event answered `ok`: the operation returns `OK` behind its last line (R15, R208). -/
theorem exec_allOk {i : Instr} {s : State} {rest : List Answer} (hs : s.seq = .idle) (hw : i.wf = true)
    (hp : 0 < i.op.events) (ha : s.answers = List.replicate i.op.events .ok ++ rest) :
    exec i s =
      .next (((s.latchOperands (encode i)).afterOk ((s.latchOperands (encode i)).script i.op)).respond .ok) := by
  rw [exec_run hs hw hp]
  exact congrArg Host.Outcome.next (State.runFrom_ok _ _ _ _ rest (by rwa [State.length_script]))

/-- Event `k` the first one answered `fail`: the operation ends at its line `k` (R139). -/
theorem exec_firstFail {i : Instr} {s : State} {k : Nat} {l : Line} {rest : List Answer} (hs : s.seq = .idle)
    (hw : i.wf = true) (hl : ((s.latchOperands (encode i)).script i.op)[k]? = some l)
    (ha : s.answers = List.replicate k .ok ++ .fail :: rest) :
    exec i s =
      .next (((s.latchOperands (encode i)).afterOk (((s.latchOperands (encode i)).script i.op).take k)).afterFail l) := by
  rw [exec_run hs hw (Nat.zero_lt_of_lt (State.script_port_of_getElem hl).1)]
  exact congrArg Host.Outcome.next (State.runFrom_fail _ _ k _ l _ rest hl ha)

/-- Everything lines answered `ok` and a failed one behind them do; the sink and its counter are left open (R206, R207). -/
theorem State.afterFail_afterOk_eq (ls : List Line) (l : Line) (s : State) : ∃ σ n, (s.afterOk ls).afterFail l = { s with
    lc := l.onFail.getD (ls.foldl (fun lc l => l.onOk.getD lc) s.lc)
    dc := latchOf .dc s.dc (ls.map Line.okEvent ++ [l.port.event .fail])
    rst := latchOf .rst s.rst (ls.map Line.okEvent ++ [l.port.event .fail])
    bl := latchOf .bl s.bl (ls.map Line.okEvent ++ [l.port.event .fail])
    trace := s.trace ++ (ls.map Line.okEvent ++ [l.port.event .fail])
    rsp := l.port.error.word 0 0, responses := s.responses ++ [l.port.error.word 0 0], seq := .idle
    answers := (s.answers.drop ls.length).tail, sink := σ, free := n } := by
  obtain ⟨_, _, hok⟩ := State.afterOk_eq ls s
  obtain ⟨σ, n, hfail⟩ := State.afterFail_eq l (s.afterOk ls)
  rw [hok] at hfail
  simp only [latchOf_append, ← List.append_assoc]
  exact ⟨σ, n, hok ▸ hfail⟩

/-- The return `OK`, field by field (R84). -/
theorem State.respond_ok_eq (s : State) :
    s.respond .ok = { s with rsp := 0, responses := s.responses ++ [0], seq := .idle } := rfl

/-! ### One `DC` drive and one transfer -/

/-- What a delivered byte does to the sink under each level of `DC` (R66, R132, R133). -/
def Level.deliverByte : Level → Params → Sink → Byte → Sink
  | .low => Sink.command
  | .high => Sink.data

/-- The common form of `SendCommand` and `SendData`, by the level of `DC` (R132, R133). -/
def dcTransfer (lv : Level) (bytes : List Byte) : List Line := [{ port := .drive .dc lv }, { port := .send bytes }]

theorem sendCommand_eq_dcTransfer (bytes : List Byte) : sendCommand bytes = dcTransfer .low bytes := rfl
theorem sendData_eq_dcTransfer (bytes : List Byte) : sendData bytes = dcTransfer .high bytes := rfl

/-- A `DC` drive answered `ok`. -/
theorem State.afterOk_dcDrive (lv : Level) (s : State) : s.afterOk [{ port := .drive .dc lv }] = { s with
    dc := lv.latch, trace := s.trace ++ [.pin .dc lv .ok], answers := s.answers.tail } := rfl

/-- Bytes delivered under a level just driven reach the sink alone (R66). -/
theorem State.deliver_latch {s : State} {lv : Level} (h : s.dc = lv.latch) (bytes : List Byte) :
    s.deliver bytes = { s with sink := bytes.foldl (lv.deliverByte s.params) s.sink } := by
  cases lv <;> simp only [State.deliver, h, Level.latch, Level.deliverByte]

/-- A transfer answered `ok` delivers its bytes under the level `DC` holds (R33, R131). -/
theorem State.afterOk_send {s : State} {lv : Level} (h : s.dc = lv.latch) (bytes : List Byte) :
    s.afterOk [{ port := .send bytes }] = { s with
      trace := s.trace ++ [.bus bytes .ok], answers := s.answers.tail
      sink := bytes.foldl (lv.deliverByte s.params) s.sink } :=
  congrArg (State.record (.bus bytes .ok)) (State.deliver_latch (s := s.takeAnswer) h bytes)

/-- Both events answered `ok`: the bytes are delivered under the level just driven. -/
theorem State.afterOk_dcTransfer (lv : Level) (bytes : List Byte) (s : State) :
    s.afterOk (dcTransfer lv bytes) = { s with
      dc := lv.latch, trace := s.trace ++ [.pin .dc lv .ok, .bus bytes .ok], answers := s.answers.tail.tail
      sink := bytes.foldl (lv.deliverByte s.params) s.sink } := by
  show (s.afterOk [{ port := .drive .dc lv }]).afterOk [{ port := .send bytes }] = _
  rw [State.afterOk_send (State.afterOk_latches _ s).1, State.afterOk_dcDrive, List.append_assoc]
  rfl

/-- A failed `DC` drive leaves the latch unknown and the sink as it was (R28, R130). -/
theorem State.afterFail_dcDrive (lv : Level) (s : State) : s.afterFail { port := .drive .dc lv } = { s with
    dc := .unknown, trace := s.trace ++ [.pin .dc lv .fail]
    rsp := 2, responses := s.responses ++ [2], seq := .idle, answers := s.answers.tail } := rfl

/-- A failed transfer delivers nothing (R131; log entry 18). -/
theorem State.afterFail_send (bytes : List Byte) (s : State) : s.afterFail { port := .send bytes } = { s with
    trace := s.trace ++ [.bus bytes .fail]
    rsp := 1, responses := s.responses ++ [1], seq := .idle, answers := s.answers.tail } := rfl

/-- The three ends of an operation that is one `DC` drive and one transfer (R132, R133, R139). -/
theorem exec_dcTransfer {i : Instr} {s : State} (lv : Level) (bytes : List Byte) (rest : List Answer) (hs : s.seq = .idle)
    (hw : i.wf = true) (hi : (s.latchOperands (encode i)).script i.op = dcTransfer lv bytes) :
    (s.answers = .ok :: .ok :: rest →
      exec i s = .next { s.latchOperands (encode i) with
        dc := lv.latch, trace := s.trace ++ [.pin .dc lv .ok, .bus bytes .ok]
        rsp := 0, responses := s.responses ++ [0], seq := .idle, answers := rest
        sink := bytes.foldl (lv.deliverByte s.params) s.sink }) ∧
    (s.answers = .fail :: rest →
      exec i s = .next { s.latchOperands (encode i) with
        dc := .unknown, trace := s.trace ++ [.pin .dc lv .fail]
        rsp := 2, responses := s.responses ++ [2], seq := .idle, answers := rest }) ∧
    (s.answers = .ok :: .fail :: rest →
      exec i s = .next { s.latchOperands (encode i) with
        dc := lv.latch, trace := s.trace ++ [.pin .dc lv .ok, .bus bytes .fail]
        rsp := 1, responses := s.responses ++ [1], seq := .idle, answers := rest }) := by
  have hlen : i.op.events = 2 := by rw [← State.length_script (s.latchOperands (encode i)), hi]; rfl
  refine ⟨fun ha => ?_, fun ha => ?_, fun ha => ?_⟩
  · rw [exec_allOk hs hw (by omega) (by rw [hlen, ha]; rfl), hi, State.afterOk_dcTransfer, State.respond_ok_eq]
    simp only [State.latchOperands_answers, ha, List.tail_cons]
    rfl
  · rw [exec_firstFail (k := 0) hs hw (by rw [hi]; rfl) ha, List.take_zero, State.afterOk, State.afterFail_dcDrive]
    simp only [State.latchOperands_answers, ha, List.tail_cons]
    rfl
  · rw [exec_firstFail (k := 1) hs hw (by rw [hi]; rfl) ha, hi, dcTransfer, List.take_succ_cons, List.take_zero,
      State.afterOk_dcDrive, State.afterFail_send]
    simp only [State.latchOperands_answers, ha, List.tail_cons, List.append_assoc, List.cons_append, List.nil_append]
    rfl

end Sys2Proof.Machine

namespace Sys2Proof.Proofs

open Sys2Proof.Machine

/-- Settles O37: `k` lines answered `ok` leave their events and lifecycle writes, and the failed line adds its own. -/
theorem firstFailureEndsTheOperation : Obligations.FirstFailureEndsTheOperation := by
  intro i s k rest hs hw hk ha l es
  obtain ⟨line, hline, hport⟩ := State.script_step l i.op k hk
  have hlen : ((l.script i.op).take k).length = k := by simp [State.length_script, hk.le]
  have hans : (l.answers.drop k).tail = rest := by
    rw [State.latchOperands_answers, ha, List.drop_left' List.length_replicate, List.tail_cons]
  obtain ⟨σ, n, hend⟩ := State.afterFail_afterOk_eq ((l.script i.op).take k) line l
  rw [hlen, hans, hport, State.script_take_events l i.op k hk.le, State.script_lc l i.op k hk.le (by omega),
    State.script_lcFail l i.op k hk l.lc line hline] at hend
  exact ⟨σ, n, (exec_firstFail hs hw hline ha).trans (congrArg Host.Outcome.next hend)⟩

/-- Settles O23: its lines drive `DC` low and send the payload. -/
theorem commandSendsItsPayload : Obligations.CommandSendsItsPayload := by
  intro s bytes rest hs hlen
  exact exec_dcTransfer .low bytes rest hs ((atMost_iff bytes 65535).2 hlen) (sendCommand_eq_dcTransfer bytes)

/-- Settles O24: its lines drive `DC` high and send the payload. -/
theorem dataSendsItsPayload : Obligations.DataSendsItsPayload := by
  intro s bytes rest hs hlen
  exact exec_dcTransfer .high bytes rest hs ((atMost_iff bytes 65535).2 hlen) (sendData_eq_dcTransfer bytes)

/-- Settles O25: success runs both drives, and either failure is a first failed event. -/
theorem resetPulsesTheResetPin : Obligations.ResetPulsesTheResetPin := by
  intro s rest hs
  refine ⟨fun ha => ?_, fun ha => ?_, fun ha => ?_⟩
  · obtain ⟨σ, n, hok⟩ := State.afterOk_eq resetPulse (s.latchOperands (encode .reset))
    refine ⟨σ, n, ?_⟩
    rw [exec_allOk hs rfl (by decide) ha]
    show Host.Outcome.next (((s.latchOperands (encode .reset)).afterOk resetPulse).respond .ok) = _
    rw [hok, State.latchOperands_answers, ha, State.respond_ok_eq]
    rfl
  · exact firstFailureEndsTheOperation .reset s 0 rest hs rfl (by decide) ha
  · exact firstFailureEndsTheOperation .reset s 1 rest hs rfl (by decide) ha

end Sys2Proof.Proofs
end

section
/-! SUPPORT. `INIT` by its step numbers: which pin or transfer a step asks for, what the first `k` steps leave of the latches,
and the statements about its ends and about the steps of both sequences (R150 to R156, R174). -/

namespace Sys2Proof.Machine

/-! ### The three kinds of steps -/

/-- A step of `INIT` is a drive of the reset pulse, the `DC` drive of a byte, or its transfer (R154). -/
theorem initStep_cases (s : State) (k : Nat) :
    (k < 2 ∧ ∃ lv, initStep s k = .drive .rst lv) ∨ (2 ≤ k ∧ k % 2 = 0 ∧ initStep s k = .drive .dc .low) ∨
    (2 ≤ k ∧ k % 2 = 1 ∧ ∃ bytes, initStep s k = .send bytes) := by
  unfold initStep
  split_ifs with h0 h1 heven
  · exact .inl ⟨by omega, _, rfl⟩
  · exact .inl ⟨by omega, _, rfl⟩
  · exact .inr (.inl ⟨by omega, heven, rfl⟩)
  · exact .inr (.inr ⟨by omega, by omega, _, rfl⟩)

/-- The error a failed step of `INIT` answers: a transfer stands at the odd steps behind the pulse (R155). -/
theorem initStep_errorWord (s : State) (k : Nat) :
    (initStep s k).error.word 0 0 = if k < 2 ∨ k % 2 = 0 then 2 else 1 := by
  obtain ⟨hk, lv, hstep⟩ | ⟨hk, heven, hstep⟩ | ⟨hk, hodd, bytes, hstep⟩ := initStep_cases s k <;> rw [hstep]
  · rw [if_pos (.inl hk)]; rfl
  · rw [if_pos (.inr heven)]; rfl
  · rw [if_neg (by omega)]; rfl

/-! ### Latches and lifecycle -/

theorem State.okEvents_succ (s : State) (op : Op) (k : Nat) :
    s.okEvents op (k + 1) = s.okEvents op k ++ [(s.portStep op k).event .ok] := by
  rw [State.okEvents, List.range_succ, List.map_append]
  rfl

/-- One more step of `INIT` answered `ok` moves a latch as its event says. -/
theorem latchOf_initEvents_succ (p : Pin) (v : Latch) (s : State) (k : Nat) :
    latchOf p v (s.okEvents .init (k + 1)) = latchOf p (latchOf p v (s.okEvents .init k)) [(initStep s k).event .ok] := by
  rw [State.okEvents_succ, latchOf_append]
  rfl

/-- `DC` is low from the first byte's drive on, which is step 2 (R154). -/
theorem latchOf_dc_initEvents (v : Latch) (s : State) (k : Nat) :
    latchOf .dc v (s.okEvents .init k) = if k ≤ 2 then v else .low := by
  induction k with
  | zero => rfl
  | succ k ih =>
    rw [latchOf_initEvents_succ, ih]
    obtain ⟨hk, lv, hstep⟩ | ⟨hk, -, hstep⟩ | ⟨hk, hodd, bytes, hstep⟩ := initStep_cases s k <;> rw [hstep]
    · rw [if_pos (by omega), if_pos (by omega)]; rfl
    · rw [if_neg (show ¬ k + 1 ≤ 2 by omega)]; rfl
    · rw [if_neg (by omega), if_neg (by omega)]; rfl

/-- `RST` is high behind the pulse (R134). -/
theorem latchOf_rst_initEvents (v : Latch) (s : State) {k : Nat} (hk : 2 ≤ k) :
    latchOf .rst v (s.okEvents .init k) = .high := by
  induction k, hk using Nat.le_induction with
  | base => rfl
  | succ k hk ih =>
    rw [latchOf_initEvents_succ, ih]
    obtain ⟨hlt, -⟩ | ⟨-, -, hstep⟩ | ⟨-, -, bytes, hstep⟩ := initStep_cases s k
    · omega
    · rw [hstep]; rfl
    · rw [hstep]; rfl

/-- No step of `INIT` touches the backlight pin, answered `ok` or `fail` (R191). -/
theorem latchOf_bl_initStep (v : Latch) (s : State) (k : Nat) (a : Answer) :
    latchOf .bl v [(initStep s k).event a] = v := by
  obtain ⟨-, lv, hstep⟩ | ⟨-, -, hstep⟩ | ⟨-, -, bytes, hstep⟩ := initStep_cases s k <;> rw [hstep] <;> rfl

theorem latchOf_bl_initEvents (v : Latch) (s : State) (k : Nat) : latchOf .bl v (s.okEvents .init k) = v := by
  induction k with
  | zero => rfl
  | succ k ih => rw [latchOf_initEvents_succ, ih, latchOf_bl_initStep]

/-- The events of an `INIT` that ends at its failed step `k` (R155). -/
def State.initEventsFail (s : State) (k : Nat) : List Event := s.okEvents .init k ++ [(initStep s k).event .fail]

/-- A failed drive of `INIT` makes its own pin's latch unknown; every other latch stands as the steps before it left it
(R28, R155). -/
theorem latchOf_initEventsFail (v : Latch) (s : State) (k : Nat) :
    latchOf .rst v (s.initEventsFail k) = (if k < 2 then .unknown else .high) ∧
    latchOf .dc v (s.initEventsFail k) = (if k < 2 then v else if k % 2 = 0 then .unknown else .low) ∧
    latchOf .bl v (s.initEventsFail k) = v := by
  refine and_assoc.1 ⟨?_, by rw [State.initEventsFail, latchOf_append, latchOf_bl_initEvents, latchOf_bl_initStep]⟩
  rw [State.initEventsFail, latchOf_append, latchOf_append, latchOf_dc_initEvents]
  obtain ⟨hk, lv, hstep⟩ | ⟨hk, heven, hstep⟩ | ⟨hk, hodd, bytes, hstep⟩ := initStep_cases s k <;> rw [hstep]
  · rw [if_pos hk, if_pos hk, if_pos (by omega)]
    exact ⟨rfl, rfl⟩
  · rw [if_neg (show ¬ k < 2 by omega), if_neg (show ¬ k < 2 by omega), if_pos heven, latchOf_rst_initEvents v s hk]
    exact ⟨rfl, rfl⟩
  · rw [if_neg (by omega), if_neg (by omega), if_neg (by omega), if_neg (by omega), latchOf_rst_initEvents v s hk]
    exact ⟨rfl, rfl⟩

/-- The lifecycle a failed step of `INIT` leaves: byte 6 is accepted at step 15 (R156). -/
theorem lifecycleAfter_init_fail {k : Nat} (hk : k < 22) (lc : Lifecycle) :
    lifecycleAfter .init k true lc = if k < 2 then .uninitialized else if k ≤ 15 then .reset else .configured := by
  simp only [lifecycleAfter, Nat.le_iff_lt_add_one, if_pos hk, if_true]

/-! ### The events of a whole `INIT` -/

/-- The two events of a byte sent as a command (R132). -/
def commandByteEvents (b : Byte) : List Event := [.pin .dc .low .ok, .bus [b] .ok]

/-- The pulse, then the ten bytes in the order of R153, each sent as a command (R154). -/
theorem State.okEvents_init (s : State) :
    s.okEvents .init 22 = [.pin .rst .low .ok, .pin .rst .high .ok] ++
      ((List.range 10).map (initByte s.params s.orient s.bias)).flatMap commandByteEvents := rfl

/-! ### The two ends -/

/-- What the 22 lines of `INIT` answered `ok` leave; the sink and its counter are left open (R156; log entry 8). -/
theorem State.afterOk_init (s : State) : ∃ σ n, s.afterOk (s.script .init) = { s with
    lc := .displaying, dc := .low, rst := .high, trace := s.trace ++ s.okEvents .init 22
    answers := s.answers.drop 22, sink := σ, free := n } := by
  have htake : (s.script .init).take 22 = s.script .init := List.take_of_length_le (s.length_script .init).le
  have hev := s.script_take_events .init 22 le_rfl
  have hlc := s.script_lc .init 22 le_rfl (by decide) s.lc
  rw [htake] at hev hlc
  obtain ⟨σ, n, hok⟩ := State.afterOk_eq (s.script .init) s
  rw [hev, hlc, State.length_script, latchOf_dc_initEvents, latchOf_rst_initEvents _ _ (by omega),
    latchOf_bl_initEvents] at hok
  exact ⟨σ, n, hok⟩

/-- An `INIT` whose event `k` is the first failed one, by the events it leaves: `FirstFailureEndsTheOperation` with the lines of
`INIT`, which no operand moves. -/
theorem execInit_firstFail {s : State} {k : Nat} {rest : List Answer} (hs : s.seq = .idle) (hk : k < 22)
    (ha : s.answers = List.replicate k .ok ++ .fail :: rest) : ∃ σ n,
    exec .init s = .next { s.latchOperands (encode .init) with
      lc := if k < 2 then .uninitialized else if k ≤ 15 then .reset else .configured
      dc := latchOf .dc s.dc (s.initEventsFail k), rst := latchOf .rst s.rst (s.initEventsFail k)
      bl := latchOf .bl s.bl (s.initEventsFail k), trace := s.trace ++ s.initEventsFail k
      rsp := (initStep s k).error.word 0 0, responses := s.responses ++ [(initStep s k).error.word 0 0]
      seq := .idle, answers := rest, sink := σ, free := n } := by
  rw [← lifecycleAfter_init_fail hk s.lc]
  exact Proofs.firstFailureEndsTheOperation .init s k rest hs rfl hk ha

end Sys2Proof.Machine

namespace Sys2Proof.Proofs

open Sys2Proof.Machine

/-- Settles O27: the state behind the 22 lines, with the ten bytes of R153 in the events. -/
theorem initSendsTheTenBytesAndDisplays : Obligations.InitSendsTheTenBytesAndDisplays := by
  intro s rest hs ha
  obtain ⟨σ, n, hok⟩ := State.afterOk_init (s.latchOperands (encode .init))
  rw [State.latchOperands_answers, ha, List.drop_left' List.length_replicate, State.okEvents_init,
    initBytesInFixedOrder] at hok
  refine ⟨σ, n, (exec_allOk hs rfl (by decide) ha).trans (congrArg Host.Outcome.next ?_)⟩
  exact congrArg (State.respond .ok) hok

/-- Settles O28: each kind of step says which error it answers and which latch it loses. -/
theorem initStopsAtItsFirstFailure : Obligations.InitStopsAtItsFirstFailure := by
  intro s k rest hs hk ha
  obtain ⟨σ, n, hend⟩ := execInit_firstFail hs hk ha
  obtain ⟨hrst, -⟩ := latchOf_initEventsFail s.rst s k
  obtain ⟨-, hdc, -⟩ := latchOf_initEventsFail s.dc s k
  obtain ⟨-, -, hbl⟩ := latchOf_initEventsFail s.bl s k
  rw [hrst, hdc, hbl, initStep_errorWord, State.initEventsFail, ← List.append_assoc] at hend
  exact ⟨σ, n, hend⟩

/-- Settles O29: an `INIT` that ended was answered `ok` throughout, or failed at one of its 22 events. -/
theorem displayingExactlyWhenInitAnswersOk : Obligations.DisplayingExactlyWhenInitAnswersOk := by
  intro s t h hidle
  obtain ⟨hs, -⟩ := exec_accepts h
  rcases answers_cases 22 s.answers with ⟨rest, ha⟩ | ⟨k, rest, hk, ha⟩ | ⟨k, hk, ha⟩
  · obtain ⟨σ, n, hend⟩ := initSendsTheTenBytesAndDisplays s rest hs ha
    cases h.symm.trans hend
    exact iff_of_true rfl rfl
  · obtain ⟨σ, n, hend⟩ := execInit_firstFail hs hk ha
    cases h.symm.trans hend
    refine iff_of_false ?_ ?_
    · dsimp only
      split_ifs <;> decide
    · rw [rspStatus_word]
      exact PortRequest.error_ne_ok _
  · obtain ⟨σ, n, page, hend, -⟩ := unansweredEventKeepsTheOperationBusy .init s k hs rfl hk ha
    cases h.symm.trans hend
    cases hidle

/-- Settles O30: the lines of an operation ask for what their numbers say. -/
theorem sequencerStepNumbers : Obligations.SequencerStepNumbers := by
  refine fun s => ⟨s.length_script .init, fun n hn => ?_, s.length_script .showFb, fun n hn => ?_⟩
  · exact (s.script_port .init n).trans (if_pos hn)
  · exact (s.script_port .showFb n).trans (if_pos hn)

end Sys2Proof.Proofs
end

section
/-! SUPPORT. `SHOW` by its step numbers: what a step asks for, what no step of it touches, what its events leave of the `DC`
latch, and the statements about its two ends (R170 to R176). -/

namespace Sys2Proof.Machine

/-! ### The two kinds of steps -/

/-- The even steps drive `DC`, high before a page's slice and low before a command (R174). -/
theorem showStep_of_even (s : State) {n : Nat} (h : n % 2 = 0) :
    showStep s n = .drive .dc (if (n - 2) % 8 = 6 then .high else .low) := by
  have hne : n ≠ 1 ∧ n ≠ 67 ∧ (n - 2) % 8 ≠ 1 ∧ (n - 2) % 8 ≠ 3 ∧ (n - 2) % 8 ≠ 5 ∧ (n - 2) % 8 ≠ 7 := by
    omega
  obtain ⟨h1, h67, hpage, hlow, hhigh, hslice⟩ := hne
  simp only [showStep, h1, h67, hpage, hlow, hhigh, hslice, if_false]
  by_cases hdata : (n - 2) % 8 = 6
  · rw [if_neg (show n ≠ 0 by omega), if_neg (show n ≠ 66 by omega), if_pos hdata, if_pos hdata]
  · rw [if_neg hdata, if_neg hdata, ite_self, ite_self]

/-- The odd steps are the transfers (R174). -/
theorem showStep_of_odd (s : State) {n : Nat} (h : n % 2 = 1) : ∃ bytes, showStep s n = .send bytes := by
  have hne : n ≠ 0 ∧ n ≠ 66 ∧ (n - 2) % 8 ≠ 6 := by omega
  obtain ⟨h0, h66, hdrive⟩ := hne
  simp only [showStep, h0, h66, hdrive, if_false]
  split_ifs
  case neg => omega
  all_goals exact ⟨_, rfl⟩

/-- So the error of a failed step tells which kind it was (R176). -/
theorem showStep_errorWord (s : State) (k : Nat) : (showStep s k).error.word 0 0 = if k % 2 = 0 then 2 else 1 := by
  obtain heven | hodd := Nat.mod_two_eq_zero_or_one k
  · rw [showStep_of_even s heven, if_pos heven]
    rfl
  · obtain ⟨bytes, hstep⟩ := showStep_of_odd s hodd
    rw [hstep, if_neg (by omega)]
    rfl

/-- The last level driven before a failed step, or `Unknown` when the failed step is the drive (R28, R176). -/
theorem latchOf_dc_showFail (v : Latch) (s : State) {k : Nat} (hk : k < 68) :
    latchOf .dc v (s.okEvents .showFb k ++ [(showStep s k).event .fail]) =
      if k % 2 = 0 then .unknown else if 2 ≤ k ∧ k < 66 ∧ (k - 2) % 8 = 7 then .high else .low := by
  obtain heven | hodd := Nat.mod_two_eq_zero_or_one k
  · rw [latchOf_append, showStep_of_even s heven, if_pos heven]
    rfl
  · obtain ⟨bytes, hstep⟩ := showStep_of_odd s hodd
    obtain ⟨m, rfl⟩ : ∃ m, k = m + 1 := ⟨k - 1, by omega⟩
    have hdrive : s.portStep .showFb m = .drive .dc (if (m - 2) % 8 = 6 then .high else .low) :=
      showStep_of_even s (by omega)
    rw [latchOf_append, hstep, State.okEvents_succ, latchOf_append, hdrive,
      if_neg (show ¬(m + 1) % 2 = 0 by omega)]
    by_cases hslice : (m - 2) % 8 = 6
    · rw [if_pos hslice, if_pos (by omega)]
      rfl
    · rw [if_neg hslice, if_neg (by omega)]
      rfl

/-! ### What no line of `SHOW` touches -/

/-- The reset and backlight latches and the count of the sink's disturbances are in `u` what they are in `s` (log entry 8). -/
def State.Undisturbed (s u : State) : Prop := u.rst = s.rst ∧ u.bl = s.bl ∧ u.free = s.free

/-- A `DC` drive keeps them, and so does a transfer under a known level of `DC`. -/
theorem State.Undisturbed.perform {s u : State} (h : s.Undisturbed u) (r : PortRequest) (a : Answer) (o : Option Lifecycle)
    (hr : (∃ lv, r = .drive .dc lv) ∨ ∃ bytes lv, r = .send bytes ∧ u.dc = Level.latch lv) :
    s.Undisturbed ((u.takeAnswer.perform r a).setLc o) := by
  obtain ⟨hrst, hbl, hfree⟩ := h
  obtain ⟨lv, rfl⟩ | ⟨bytes, lv, rfl, hdc⟩ := hr
  · exact ⟨by simpa [State.perform] using hrst, by simpa [State.perform] using hbl, by simpa [State.perform] using hfree⟩
  · refine ⟨by simpa [State.perform] using hrst, by simpa [State.perform] using hbl, ?_⟩
    cases a with
    | fail => simpa [State.perform] using hfree
    | ok =>
      have hdeliver := State.deliver_latch (s := u.takeAnswer) hdc bytes
      simpa [State.perform, hdeliver] using hfree

/-- `SHOW` touches neither pin, and delivers no byte under an unknown level (R170, R191, R192). -/
theorem execShow_undisturbed {s t : State} (h : exec .showFb s = .next t) : s.Undisturbed t := by
  have carry : ∀ (n : Nat) (l : Line) (u : State) (a : Answer) (o : Option Lifecycle), (u.script .showFb)[n]? = some l →
      s.Undisturbed u → u.transferReady .showFb n → s.Undisturbed ((u.takeAnswer.perform l.port a).setLc o) := by
    intro n l u a o hl hu hrdy
    refine hu.perform l.port a o ?_
    have hport : l.port = showStep u n := (State.script_port_of_getElem hl).2
    obtain heven | hodd := Nat.mod_two_eq_zero_or_one n
    · exact .inl ⟨_, hport.trans (showStep_of_even u heven)⟩
    · obtain ⟨bytes, hstep⟩ := showStep_of_odd u hodd
      obtain ⟨lv, -, hd⟩ := State.transferReady_line hrdy hl bytes (hport.trans hstep)
      exact .inr ⟨bytes, lv, hport.trans hstep, hd⟩
  rw [exec_eq_run (by decide) (by decide) h]
  refine State.runFrom_rule (op := .showFb) (fun n u => s.Undisturbed u ∧ u.transferReady .showFb n) s.Undisturbed
    ?ok ?fail (fun _ _ _ _ hu => hu.1) (fun _ hu => hu.1) (Nat.zero_le _)
    ⟨⟨rfl, rfl, rfl⟩, State.transferReady_zero _ (by decide)⟩
  case ok => exact fun n l u as hl _ hu => ⟨carry n l u .ok _ hl hu.1 hu.2, State.transferReady_afterOk hl⟩
  case fail => exact fun n l u as hl _ hu => carry n l u .fail _ hl hu.1 hu.2

/-! ### The events of a whole `SHOW` -/

/-- The slice of a page, byte by byte (R51, R173). -/
theorem State.pageSlice_eq_map (s : State) (p : Nat) :
    s.pageSlice p = (List.range 128).map fun c => s.fbByte (128 * p + c) := by
  refine List.ext_getElem? fun c => ?_
  rw [State.pageSlice, Memory.getElem?_readBytes, List.getElem?_map]
  split
  · next h => rw [List.getElem?_range h]; rfl
  · next h => rw [List.getElem?_eq_none (by simpa using h)]; rfl

/-- The eight events of page `p`: three one-byte commands and the slice, each behind its `DC` drive (R172, R173). -/
def State.pageEvents (s : State) (p : Nat) : List Event :=
  commandByteEvents (pageCmd s.params p) ++ commandByteEvents (colLowCmd s.params s.orient) ++
    commandByteEvents s.params.colHigh ++
    [.pin .dc .high .ok, .bus ((List.range 128).map fun c => s.fbByte (128 * p + c)) .ok]

theorem State.pageLines_okEvents (s : State) (p : Nat) : (s.pageLines p).map Line.okEvent = s.pageEvents p := by
  rw [State.pageEvents, ← State.pageSlice_eq_map]
  rfl

/-- The lines of a whole operation leave its events. -/
theorem State.script_okEvents (s : State) (op : Op) : (s.script op).map Line.okEvent = s.okEvents op op.events := by
  rw [← s.script_take_events op op.events le_rfl, List.take_of_length_le (s.length_script op).le]

/-- The pages in order between the two bracket commands (R170, R171). -/
theorem State.okEvents_showFb (s : State) :
    s.okEvents .showFb 68 = commandByteEvents s.params.rmwEnter ++ [0, 1, 2, 3, 4, 5, 6, 7].flatMap s.pageEvents ++
      commandByteEvents s.params.rmwExit := by
  rw [← funext s.pageLines_okEvents, ← List.map_flatMap]
  exact (s.script_okEvents .showFb).symm.trans
    (by rw [State.script, State.showLines, List.map_append, List.map_append]; rfl)

/-! ### The two ends -/

/-- An operation with port events whose events were all answered `ok`, by these events; the sink and its counter are left open
(R15, R208). -/
theorem exec_allOk_eq {i : Instr} {s : State} {rest : List Answer} (hs : s.seq = .idle) (hw : i.wf = true)
    (hp : 0 < i.op.events) (ha : s.answers = List.replicate i.op.events .ok ++ rest) :
    let l := s.latchOperands (encode i)
    let es := l.okEvents i.op i.op.events
    ∃ σ n, exec i s = .next { l with
      lc := lifecycleAfter i.op i.op.events false s.lc
      dc := latchOf .dc s.dc es, rst := latchOf .rst s.rst es, bl := latchOf .bl s.bl es, trace := s.trace ++ es
      rsp := 0, responses := s.responses ++ [0], seq := .idle, answers := rest, sink := σ, free := n } := by
  intro l es
  have hev : (l.script i.op).map Line.okEvent = es := l.script_okEvents i.op
  have hlc := l.script_lc i.op i.op.events le_rfl hp s.lc
  rw [List.take_of_length_le (l.length_script i.op).le] at hlc
  have hans : l.answers.drop (l.script i.op).length = rest := by
    rw [State.length_script, State.latchOperands_answers, ha, List.drop_left' List.length_replicate]
  obtain ⟨σ, n, hok⟩ := State.afterOk_eq (l.script i.op) l
  rw [hev, State.latchOperands_lc, hlc, hans] at hok
  exact ⟨σ, n, (exec_allOk hs hw hp ha).trans (congrArg (fun u => Host.Outcome.next (State.respond .ok u)) hok)⟩

/-- A `SHOW` whose 68 events were all answered `ok`; of the pins only `DC` has moved (R170). -/
theorem execShow_allOk {s : State} {rest : List Answer} (hs : s.seq = .idle)
    (ha : s.answers = List.replicate 68 .ok ++ rest) : ∃ σ,
    exec .showFb s = .next { s.latchOperands (encode .showFb) with
      dc := .low, trace := s.trace ++ s.okEvents .showFb 68
      rsp := 0, responses := s.responses ++ [0], seq := .idle, answers := rest, sink := σ } := by
  obtain ⟨σ, n, hend⟩ := exec_allOk_eq (i := .showFb) hs rfl (by decide) ha
  obtain ⟨hrst, hbl, hfree⟩ := execShow_undisturbed hend
  refine ⟨σ, hend.trans (congrArg Host.Outcome.next ?_)⟩
  dsimp only at hrst hbl hfree
  rw [hrst, hbl, hfree]
  rfl

/-- A `SHOW` whose event `k` is the first failed one, by the events it leaves; of the pins only `DC` has moved (R176). -/
theorem execShow_firstFail {s : State} {k : Nat} {rest : List Answer} (hs : s.seq = .idle) (hk : k < 68)
    (ha : s.answers = List.replicate k .ok ++ .fail :: rest) : ∃ σ,
    exec .showFb s = .next { s.latchOperands (encode .showFb) with
      dc := latchOf .dc s.dc (s.okEvents .showFb k ++ [(showStep s k).event .fail])
      trace := s.trace ++ (s.okEvents .showFb k ++ [(showStep s k).event .fail])
      rsp := (showStep s k).error.word 0 0, responses := s.responses ++ [(showStep s k).error.word 0 0]
      seq := .idle, answers := rest, sink := σ } := by
  obtain ⟨σ, n, hend⟩ := Proofs.firstFailureEndsTheOperation .showFb s k rest hs rfl hk ha
  obtain ⟨hrst, hbl, hfree⟩ := execShow_undisturbed hend
  refine ⟨σ, hend.trans (congrArg Host.Outcome.next ?_)⟩
  dsimp only at hrst hbl hfree
  rw [hrst, hbl, hfree]
  rfl

end Sys2Proof.Machine

namespace Sys2Proof.Proofs

open Sys2Proof.Machine

/-- Settles O31: the state behind the 68 lines, with each page's slice spelled byte by byte in the events. -/
theorem showSendsEightPages : Obligations.ShowSendsEightPages := by
  intro s rest hs ha
  obtain ⟨σ, hend⟩ := execShow_allOk hs ha
  rw [State.okEvents_showFb] at hend
  exact ⟨σ, hend⟩

/-- Settles O32: each kind of step says which error it answers, and the drive before a transfer which level stays. -/
theorem showStopsAtItsFirstFailure : Obligations.ShowStopsAtItsFirstFailure := by
  intro s k rest hs hk ha
  obtain ⟨σ, hend⟩ := execShow_firstFail hs hk ha
  rw [latchOf_dc_showFail s.dc s hk, showStep_errorWord, ← List.append_assoc] at hend
  exact ⟨σ, hend⟩

end Sys2Proof.Proofs
end

section
/-! SUPPORT. What a `SHOW` leaves of the sink when it fails at event `k`: the enter command and whole pages, then some address
commands of the page that failed; and the statements about the torn frame and the read-modify-write mode (R171, R176, R177). -/

namespace Sys2Proof.Machine

/-! ### The lines before event `k` -/

/-- The first lines of pages of equal length: the lines of the whole pages among them, then the first ones of the page they end
in. -/
theorem take_flatMap_range {α : Type} (f : Nat → List α) {w : Nat} (hf : ∀ p, (f p).length = w) {n q j : Nat} (hq : q < n)
    (hj : j ≤ w) : ((List.range n).flatMap f).take (w * q + j) = (List.range q).flatMap f ++ (f q).take j := by
  obtain ⟨m, rfl⟩ : ∃ m, n = q + (m + 1) := ⟨n - q - 1, by omega⟩
  have hlen : ((List.range q).flatMap f).length = w * q := by simp [List.length_flatMap, hf, Nat.mul_comm]
  have hrange : (List.range (q + (m + 1))).flatMap f =
      (List.range q).flatMap f ++ (f q ++ ((List.range m).map (q + 1 + ·)).flatMap f) := by
    rw [List.range_add, List.flatMap_append, List.range_succ_eq_map]
    simp [List.flatMap_cons, Function.comp_def, Nat.add_assoc, Nat.add_comm 1]
  rw [hrange, ← hlen, List.take_length_add_append, List.take_append_of_le_length (by rwa [hf])]

theorem State.length_pageLines (s : State) (p : Nat) : (s.pageLines p).length = 8 := rfl

/-- Every step behind the enter command is line `j` of page `q`, counting the exit command's as a ninth page's (R174). -/
theorem exists_pageStep {k : Nat} (h : 2 ≤ k) : ∃ q j, j < 8 ∧ k = 2 + (8 * q + j) :=
  ⟨(k - 2) / 8, (k - 2) % 8, Nat.mod_lt _ (by decide), by omega⟩

/-- Before step `2 + 8q + j` of `SHOW` stand the enter command, `q` whole pages, and the first `j` lines of the next page; the
drive at step 66 is the one that a ninth page would begin with (R174). -/
theorem State.take_showLines (s : State) {q j : Nat} (hj : j < 8) (hk : 2 + (8 * q + j) < 68) :
    s.showLines.take (2 + (8 * q + j)) =
      sendCommand [s.params.rmwEnter] ++ (List.range q).flatMap s.pageLines ++ (s.pageLines q).take j := by
  have henter : 2 = (sendCommand [s.params.rmwEnter]).length := rfl
  have hpages : ((List.range 8).flatMap s.pageLines).length = 8 * 8 := rfl
  rw [State.showLines, List.append_assoc, List.append_assoc, henter, List.take_length_add_append]
  congr 1
  obtain hlt | rfl : q < 8 ∨ q = 8 := by omega
  · rw [List.take_append_of_le_length (hpages ▸ by omega)]
    exact take_flatMap_range s.pageLines s.length_pageLines hlt (by omega)
  · rw [← hpages, List.take_length_add_append]
    congr 1
    obtain rfl | rfl : j = 0 ∨ j = 1 := by omega
    all_goals rfl

/-- The first lines of some transfers, each behind its `DC` drive, deliver the transfers among them that are whole (R66). -/
theorem State.afterOk_take_dcTransfers_sink (ts : List (Level × List Byte)) (j : Nat) (u : State) :
    (u.afterOk ((ts.flatMap fun t => dcTransfer t.1 t.2).take j)).sink =
      (ts.take (j / 2)).foldl (fun σ t => t.2.foldl (t.1.deliverByte u.params) σ) u.sink := by
  induction ts generalizing j u with
  | nil => rw [List.flatMap_nil, List.take_nil, List.take_nil]; rfl
  | cons t ts ih =>
    match j with
    | 0 => rfl
    | 1 => rfl
    | i + 2 =>
      have hlen : (dcTransfer t.1 t.2).length = 2 := rfl
      rw [List.flatMap_cons, Nat.add_comm i 2, ← hlen, List.take_length_add_append, State.afterOk_append, ih,
        State.afterOk_params, State.afterOk_dcTransfer, hlen, show (2 + i) / 2 = i / 2 + 1 by omega, List.take_succ_cons,
        List.foldl_cons]

/-- The address commands of a page (R172). -/
def addressBytes (c : Params) (o : Orientation) (p : Nat) : List Byte := [pageCmd c p, colLowCmd c o, colHighCmd c]

/-- Short of its slice, the first lines of a page deliver some of its address commands (R172). -/
theorem State.afterOk_take_pageLines_sink (s u : State) (p : Nat) {j : Nat} (hj : j < 8) :
    (u.afterOk ((s.pageLines p).take j)).sink =
      ((addressBytes s.params s.orient p).take (j / 2)).foldl (Sink.command u.params) u.sink := by
  have hlines : s.pageLines p = [(Level.low, [pageCmd s.params p]), (Level.low, [colLowCmd s.params s.orient]),
      (Level.low, [colHighCmd s.params]), (Level.high, s.pageSlice p)].flatMap fun t => dcTransfer t.1 t.2 := rfl
  rw [hlines, State.afterOk_take_dcTransfers_sink]
  obtain h | h | h | h : j / 2 = 0 ∨ j / 2 = 1 ∨ j / 2 = 2 ∨ j / 2 = 3 := by omega
  all_goals rw [h]; rfl

/-- The state behind the enter command and the first `q` pages. -/
def State.behindPages (s : State) (q : Nat) : State :=
  s.afterOk (sendCommand [s.params.rmwEnter] ++ (List.range q).flatMap s.pageLines)

theorem State.behindPages_succ (s : State) (q : Nat) : s.behindPages (q + 1) = (s.behindPages q).afterOk (s.pageLines q) := by
  rw [State.behindPages, List.range_succ, List.flatMap_append, List.flatMap_singleton, ← List.append_assoc,
    State.afterOk_append, State.behindPages]

@[simp] theorem State.behindPages_params (s : State) (q : Nat) : (s.behindPages q).params = s.params :=
  State.afterOk_params _ s

/-- A failed `DC` drive and a failed transfer leave the sink (R130, R131; log entry 18). -/
theorem State.afterFail_sink {l : Line} {s : State} (h : ∀ lv, l.port ≠ .drive .rst lv) : (s.afterFail l).sink = s.sink := by
  rcases l with ⟨⟨p, lv⟩ | bytes, a, b⟩
  · cases p with
    | rst => exact absurd rfl (h lv)
    | dc | bl => simp [State.afterFail, State.perform]
  · simp [State.afterFail, State.perform]

/-- No step of `SHOW` drives the reset pin (R170). -/
theorem showStep_ne_rst (s : State) (n : Nat) (lv : Level) : showStep s n ≠ .drive .rst lv := by
  obtain heven | hodd := Nat.mod_two_eq_zero_or_one n
  · rw [showStep_of_even s heven]
    rintro ⟨⟩
  · obtain ⟨bytes, hstep⟩ := showStep_of_odd s hodd
    rw [hstep]
    rintro ⟨⟩

/-- A `SHOW` that fails at event `k` leaves the sink as the lines before `k` did (R176). -/
theorem execShow_failSink {s t : State} {k : Nat} {rest : List Answer} (h : exec .showFb s = .next t) (hk : k < 68)
    (ha : s.answers = List.replicate k .ok ++ .fail :: rest) :
    t.sink = ((s.latchOperands (encode .showFb)).afterOk (s.showLines.take k)).sink := by
  obtain ⟨hs, hw⟩ := exec_accepts h
  obtain ⟨l, hl, hport⟩ := State.script_step (s.latchOperands (encode .showFb)) .showFb k hk
  obtain rfl : _ = t := Host.Outcome.next.inj ((exec_firstFail (i := .showFb) hs hw hl ha).symm.trans h)
  refine State.afterFail_sink fun lv => ?_
  rw [hport]
  exact showStep_ne_rst _ k lv

/-- A `SHOW` that fails before its first transfer is answered leaves the sink as it was (R176, R177). -/
theorem execShow_failSink_enter {s t : State} {k : Nat} {rest : List Answer} (h : exec .showFb s = .next t) (hk : k < 2)
    (ha : s.answers = List.replicate k .ok ++ .fail :: rest) : t.sink = s.sink := by
  have hsink := execShow_failSink h (by omega) ha
  obtain rfl | rfl : k = 0 ∨ k = 1 := by omega
  all_goals exact hsink

/-- One that fails at line `j` behind `q` pages leaves it behind these pages and some address commands (R176). -/
theorem execShow_failSink_pages {s t : State} {q j : Nat} {rest : List Answer} (h : exec .showFb s = .next t) (hj : j < 8)
    (hk : 2 + (8 * q + j) < 68) (ha : s.answers = List.replicate (2 + (8 * q + j)) .ok ++ .fail :: rest) :
    t.sink = ((addressBytes s.params s.orient q).take (j / 2)).foldl (Sink.command s.params)
      ((s.latchOperands (encode .showFb)).behindPages q).sink := by
  rw [execShow_failSink h hk ha, State.take_showLines s hj hk, State.afterOk_append, State.afterOk_take_pageLines_sink s _ q hj,
    State.afterOk_params]
  rfl

/-! ### The read-modify-write mode -/

/-- A command byte that is not the exit command leaves the mode entered, whether or not it is an argument (R171). -/
theorem Sink.command_rmw_of_ne {c : Params} {σ : Sink} {b : Byte} (hb : b ≠ c.rmwExit) (h : σ.rmw = true) :
    (Sink.command c σ b).rmw = true := by
  cases hw : σ.awaitsArg with
  | true => rwa [Sink.command_argument hw]
  | false => rw [Sink.command_rmw hw, if_neg hb, h, ite_self]

theorem Sink.foldl_command_rmw_of_ne {c : Params} {bs : List Byte} (hbs : ∀ b ∈ bs, b ≠ c.rmwExit) {σ : Sink}
    (h : σ.rmw = true) : (bs.foldl (Sink.command c) σ).rmw = true := by
  induction bs generalizing σ with
  | nil => exact h
  | cons b bs ih =>
    exact ih (fun b' hb' => hbs b' (List.mem_cons_of_mem b hb')) (Sink.command_rmw_of_ne (hbs b List.mem_cons_self) h)

/-- Data bytes do not touch the mode. -/
theorem Sink.foldl_data_rmw (c : Params) (bs : List Byte) (σ : Sink) : (bs.foldl (Sink.data c) σ).rmw = σ.rmw := by
  induction bs generalizing σ with
  | nil => rfl
  | cons b bs ih => exact ih _

/-- A data byte ends the wait for a contrast argument (log entry 15). -/
theorem Sink.foldl_data_awaitsArg_of_ne_nil (c : Params) {bs : List Byte} (h : bs ≠ []) (σ : Sink) :
    (bs.foldl (Sink.data c) σ).awaitsArg = false := by
  cases bs with
  | nil => exact absurd rfl h
  | cons b bs => exact Sink.foldl_data_awaitsArg_of_false c bs rfl

/-- Behind the enter command and any pages the mode is entered, when no byte of an address is the exit command (R171). -/
theorem State.behindPages_rmw {s : State} (hw : s.sink.awaitsArg = false) {q : Nat} (hq : q ≤ 8)
    (haddr : ∀ p < 8, ∀ b ∈ addressBytes s.params s.orient p, b ≠ s.params.rmwExit) :
    (s.behindPages q).sink.rmw = true := by
  induction q with
  | zero =>
    show (Sink.command s.params s.sink s.params.rmwEnter).rmw = true
    rw [Sink.command_rmw hw, if_pos rfl]
  | succ q ih =>
    rw [State.behindPages_succ, State.afterOk_pageLines_sink s _ (s.behindPages_params q), Sink.foldl_data_rmw]
    exact Sink.foldl_command_rmw_of_ne (haddr q (by omega)) (ih (by omega))

/-- Behind a page no contrast argument is awaited, because data bytes came last (log entry 15). -/
theorem State.behindPages_succ_awaitsArg (s : State) (q : Nat) : (s.behindPages (q + 1)).sink.awaitsArg = false := by
  rw [State.behindPages_succ, State.afterOk_pageLines_sink s _ (s.behindPages_params q)]
  refine Sink.foldl_data_awaitsArg_of_ne_nil _ (List.ne_nil_of_length_pos ?_) _
  rw [State.pageSlice, Memory.length_readBytes]
  decide

/-- Behind all lines of `SHOW` the sink has taken the exit command as a command (R171). -/
theorem State.afterOk_showLines_rmw (s : State) (hne : s.params.rmwEnter ≠ s.params.rmwExit) :
    (s.afterOk s.showLines).sink.rmw = false := by
  rw [State.showLines, State.afterOk_append, State.afterOk_sendCommand_sink, State.afterOk_params]
  show (Sink.command s.params (s.behindPages 8).sink s.params.rmwExit).rmw = false
  rw [Sink.command_rmw (s.behindPages_succ_awaitsArg 7), if_neg (Ne.symm hne), if_pos rfl]

/-! ### The torn frame -/

/-- A `SHOW` that fails at event `k` leaves the pages before the page of `k` in the display RAM, and every other cell as it was
(R176). -/
theorem execShow_failCells {s t : State} {k : Nat} {rest : List Answer} (hl : s.params.Legal) (hr : s.params.Readable)
    (hcols : 132 ≤ s.params.sinkCols) (hs : s.sink.sized s.params.sinkCols = true) (hk : k < 68)
    (ha : s.answers = List.replicate k .ok ++ .fail :: rest) (h : exec .showFb s = .next t) (p c : Nat) :
    t.sink.cell p c =
      if p < (k - 2) / 8 ∧ columnShift s.orient ≤ c ∧ c < columnShift s.orient + 128 then
        some (s.fbByte (128 * p + (c - columnShift s.orient)))
      else s.sink.cell p c := by
  obtain hlt | hge := Nat.lt_or_ge k 2
  · rw [execShow_failSink_enter h hlt ha, if_neg (by omega)]
  · obtain ⟨q, j, hj, rfl⟩ := exists_pageStep hge
    have hpages := State.showsPages_of_lines (u := s.latchOperands (encode .showFb)) hl hr hcols hs rfl rfl
      (show q ≤ 8 by omega)
    rw [execShow_failSink_pages h hj hk ha, Sink.cell_congr (Sink.foldl_command_ddram _ _ _),
      show (2 + (8 * q + j) - 2) / 8 = q by omega]
    exact hpages.cells p c

end Sys2Proof.Machine

namespace Sys2Proof.Proofs

open Sys2Proof.Machine

/-- Settles O35: the failed page got no further than its address commands, which leave the display RAM. -/
theorem failedShowLeavesATornFrame : Obligations.FailedShowLeavesATornFrame := by
  intro s t k rest hl hr hcols hs hk ha h
  have hcell := execShow_failCells hl hr hcols hs hk ha h
  have hq : (if k < 2 then 0 else if 66 ≤ k then 8 else (k - 2) / 8) = (k - 2) / 8 := by split_ifs <;> omega
  rw [hq]
  change (∀ p < (k - 2) / 8, ∀ c < 128, t.sink.cell p (c + columnShift s.orient) = _) ∧ _
  refine ⟨fun p hp c hc => ?_, fun p hp c => ?_⟩
  · rw [hcell, if_pos (by omega), Nat.add_sub_cancel]
  · rw [hcell, if_neg (by omega)]

/-- Settles O59: the exit command is the last line, and before it no byte is one. -/
theorem showBracketsTheReadModifyWriteMode : Obligations.ShowBracketsTheReadModifyWriteMode := by
  refine fun s t h => ⟨fun hidle hok hne => ?_, fun k rest hk ha => ⟨fun hlt => ?_, fun hge hw hpage hlow hhigh => ?_⟩⟩
  · rw [execShow_endsOk h hidle hok]
    exact State.afterOk_showLines_rmw (s.latchOperands (encode .showFb)) hne
  · rw [execShow_failSink_enter h hlt ha]
  · obtain ⟨q, j, hj, rfl⟩ := exists_pageStep hge
    have haddr : ∀ p < 8, ∀ b ∈ addressBytes s.params s.orient p, b ≠ s.params.rmwExit := by
      intro p hp b hb
      simp only [addressBytes, List.mem_cons, List.not_mem_nil, or_false] at hb
      obtain rfl | rfl | rfl := hb
      · exact (hpage p hp).symm
      · exact hlow.symm
      · exact hhigh.symm
    rw [execShow_failSink_pages h hj hk ha]
    refine Sink.foldl_command_rmw_of_ne (fun b hb => ?_)
      (State.behindPages_rmw (s := s.latchOperands (encode .showFb)) hw (by omega) haddr)
    obtain hq | hj0 : q < 8 ∨ j / 2 = 0 := by omega
    · exact haddr q hq b (List.mem_of_mem_take hb)
    · rw [hj0] at hb
      cases hb

end Sys2Proof.Proofs
end

section
/-! SUPPORT. The output pins (R28, R130, R190 to R192): what the one drive of `BACKLIGHT` leaves, which operations drive which
pin, and that a run keeps the latch of every pin its operation does not drive; and the two statements about the pins. -/

namespace Sys2Proof.Machine

/-! ### The backlight drive -/

/-- `BACKLIGHT` on its own latched operand is one drive of the backlight pin (R190). -/
theorem State.script_backlight (on : Bool) (s : State) :
    (s.latchOperands (encode (.backlight on))).script .backlight =
      [{ port := .drive .bl (if on then .high else .low) }] := by
  simp [State.script, State.backlightLines, encode]

/-- A backlight drive answered `ok` (R130, R190). -/
theorem State.afterOk_blDrive (lv : Level) (s : State) : s.afterOk [{ port := .drive .bl lv }] = { s with
    bl := lv.latch, trace := s.trace ++ [.pin .bl lv .ok], answers := s.answers.tail } := rfl

/-- A failed backlight drive leaves its latch unknown (R28, R190). -/
theorem State.afterFail_blDrive (lv : Level) (s : State) : s.afterFail { port := .drive .bl lv } = { s with
    bl := .unknown, trace := s.trace ++ [.pin .bl lv .fail]
    rsp := 2, responses := s.responses ++ [2], seq := .idle, answers := s.answers.tail } := rfl

/-! ### Which operation drives which pin -/

/-- Some step of the operation drives the pin. -/
def Drives (op : Op) (p : Pin) : Prop := ∃ (s : State) (n : Nat) (lv : Level), s.portStep op n = .drive p lv

/-- `DC` aside, a pin has its own operations (R191, R192). -/
theorem drives_cases {op : Op} {p : Pin} (h : Drives op p) :
    p = .dc ∨ p = .rst ∧ (op = .init ∨ op = .reset) ∨ p = .bl ∧ op = .backlight := by
  obtain ⟨s, n, lv, hstep⟩ := h
  cases op with
  | init =>
    obtain ⟨-, lv', hinit⟩ | ⟨-, -, hinit⟩ | ⟨-, -, bytes, hinit⟩ := initStep_cases s n <;>
      cases hinit.symm.trans hstep <;> simp
  | showFb =>
    obtain heven | hodd := Nat.mod_two_eq_zero_or_one n
    · cases (showStep_of_even s heven).symm.trans hstep
      simp
    · obtain ⟨bytes, hsend⟩ := showStep_of_odd s hodd
      cases hsend.symm.trans hstep
  | command | data =>
    simp only [State.portStep] at hstep
    split at hstep <;> cases hstep
    simp
  | reset =>
    simp only [State.portStep] at hstep
    split at hstep <;> cases hstep <;> simp
  | backlight => cases hstep; simp
  | clear | setPixel => cases hstep

theorem not_drives_bl {op : Op} (h : op ≠ .backlight) : ¬ Drives op .bl := fun hd => by
  simpa [h] using drives_cases hd

theorem not_drives_rst {op : Op} (hi : op ≠ .init) (hr : op ≠ .reset) : ¬ Drives op .rst := fun hd => by
  simpa [hi, hr] using drives_cases hd

/-- No line of an operation drives a pin that the operation does not drive. -/
theorem State.script_line_not_drives {s : State} {op : Op} {p : Pin} (hp : ¬ Drives op p) {n : Nat} {l : Line}
    (hl : (s.script op)[n]? = some l) (lv : Level) : l.port ≠ .drive p lv := fun hd =>
  hp ⟨s, n, lv, (State.script_port_of_getElem hl).2.symm.trans hd⟩

/-! ### The latch of a pin that is not driven -/

/-- The output latch of a pin (R28). -/
def State.latch (p : Pin) (s : State) : Latch :=
  match p with
  | .dc => s.dc
  | .rst => s.rst
  | .bl => s.bl

@[simp] theorem State.latch_latchOperands (p : Pin) (r : Request) (s : State) : (s.latchOperands r).latch p = s.latch p := by
  cases p <;> rfl
@[simp] theorem State.latch_storeFb (p : Pin) (m : List Host.Cell) (s : State) : (s.storeFb m).latch p = s.latch p := by
  cases p <;> rfl
@[simp] theorem State.latch_respond (p : Pin) (st : Status) (s : State) : (s.respond st).latch p = s.latch p := by
  cases p <;> rfl
@[simp] theorem State.latch_waiting (p : Pin) (op : Op) (n : Nat) (s : State) : (s.waiting op n).latch p = s.latch p := by
  cases p <;> rfl

/-- A performed line leaves the latch of every pin but the one it drives (R130, R131). -/
theorem State.latch_perform {p : Pin} {r : PortRequest} (h : ∀ lv, r ≠ .drive p lv) (s : State) (a : Answer)
    (o : Option Lifecycle) : ((s.takeAnswer.perform r a).setLc o).latch p = s.latch p := by
  cases r with
  | drive q lv =>
    have hq : q ≠ p := fun hq => h lv (by rw [hq])
    cases p <;> simp [State.latch, State.perform, hq]
  | send bytes => cases p <;> simp [State.latch, State.perform]

/-- A run keeps the latch of a pin its operation does not drive. -/
theorem State.runFrom_latch {s : State} {op : Op} {p : Pin} (hp : ¬ Drives op p) {n : Nat} (hn : n ≤ op.events) :
    (s.runFrom op n ((s.script op).drop n)).latch p = s.latch p := by
  refine State.runFrom_rule (fun _ u => u.latch p = s.latch p) (fun t => t.latch p = s.latch p) ?ok ?fail
    (fun n u _ _ hu => (u.latch_waiting p op n).trans hu) (fun u hu => (u.latch_respond p .ok).trans hu) hn rfl
  case ok =>
    rintro n l u as hl - hu
    exact (u.latch_perform (State.script_line_not_drives hp hl) .ok l.onOk).trans hu
  case fail =>
    rintro n l u as hl - hu
    rw [State.afterFail, State.raise_eq_respond, State.latch_respond,
      u.latch_perform (State.script_line_not_drives hp hl), hu]

/-- An operation begun keeps the latch of a pin it does not drive. -/
theorem exec_latch {i : Instr} {s t : State} {p : Pin} (hp : ¬ Drives i.op p) (h : exec i s = .next t) :
    t.latch p = s.latch p := by
  obtain ⟨-, -, ⟨-, rfl⟩ | ⟨x, y, v, -, -, rfl⟩ | ⟨x, y, v, -, -, rfl⟩ | ⟨-, rfl⟩⟩ := exec_cases h
  · exact (State.runFrom_latch hp (Nat.zero_le _)).trans (State.latch_latchOperands ..)
  all_goals simp

/-- An operation taken up again keeps the latch of a pin it does not drive. -/
theorem step_latch {s t : State} {op : Op} {n : Nat} {q : Fin 8} {p : Pin} (hs : s.seq = .busy op n q)
    (hp : ¬ Drives op p) (h : step s = .next t) : t.latch p = s.latch p := by
  obtain ⟨hv, rfl⟩ := step_of_busy hs h
  exact State.runFrom_latch hp (State.validPosition_lt hv).le

end Sys2Proof.Machine

namespace Sys2Proof.Proofs

open Sys2Proof.Machine

/-- Settles O26: its one line is the drive, answered `ok` or `fail`. -/
theorem backlightDrivesItsPin : Obligations.BacklightDrivesItsPin := by
  intro s on rest hs
  refine ⟨fun ha => ?_, fun ha => ?_⟩
  · rw [exec_allOk (i := .backlight on) hs rfl Nat.one_pos ha, Instr.op, State.script_backlight, State.afterOk_blDrive,
      State.respond_ok_eq]
    simp only [State.latchOperands_answers, ha, List.tail_cons]
    cases on <;> rfl
  · rw [exec_firstFail (k := 0) hs rfl (by rw [Instr.op, State.script_backlight]; rfl) ha, List.take_zero, State.afterOk,
      State.afterFail_blDrive]
    simp only [State.latchOperands_answers, ha, List.tail_cons]
    rfl

/-- Settles O46: begun or taken up again, an operation moves the latches of the pins it drives alone. -/
theorem pinsHaveTheirOwnOperations : Obligations.PinsHaveTheirOwnOperations := by
  refine ⟨fun i s t h => ⟨fun hb => ?_, fun hi hr => ?_⟩, fun s t op n q hs h => ⟨fun hb => ?_, fun hi hr => ?_⟩⟩
  · exact exec_latch (p := .bl) (not_drives_bl hb) h
  · exact exec_latch (p := .rst) (not_drives_rst hi hr) h
  · exact step_latch (p := .bl) hs (not_drives_bl hb) h
  · exact step_latch (p := .rst) hs (not_drives_rst hi hr) h

end Sys2Proof.Proofs
end

section
/-! SUPPORT. How an operation ends and when a step has no fault (R200, R204, R213): the step of a block that waits, the three
ends of an accepted operation with their events and response words, and the statements of the exceptions. -/

namespace Sys2Proof.Machine

/-! ### Steps without a fault -/

/-- A block at a position its operation has steps on along its lines (R32). -/
theorem step_of_validPosition {s : State} {op : Op} {n : Nat} {p : Fin 8} (hs : s.seq = .busy op n p)
    (hv : s.validPosition op n p = true) : step s = .next (s.runFrom op n ((s.script op).drop n)) := by
  unfold step State.resume
  rw [hs]
  simp only [hv]

/-- The page of a position is the one its step says (R32, R174). -/
theorem State.validPosition_page {s : State} {op : Op} {n : Nat} {p : Fin 8} (h : s.validPosition op n p = true) :
    p = pageAt op n := by
  rw [State.validPosition, Bool.and_eq_true, decide_eq_true_eq, decide_eq_true_eq] at h
  exact h.2

/-- A run without an answer waits where it stands (R213). -/
theorem State.runFrom_unanswered {s : State} {op : Op} {n : Nat} {p : Fin 8} (hs : s.seq = .busy op n p)
    (hv : s.validPosition op n p = true) (ha : s.answers = []) : s.runFrom op n ((s.script op).drop n) = s := by
  have hn : n < (s.script op).length := by
    rw [State.length_script]
    exact State.validPosition_lt hv
  rw [List.drop_eq_getElem_cons hn, State.runFrom_cons_nil ha, ← State.validPosition_page hv, ← hs]

/-- No operation faults: its framebuffer accesses stay inside the 1024 bytes (R50, R200). -/
theorem exec_ne_fault (i : Instr) (s : State) (f : Fault) : exec i s ≠ .fault f := by
  obtain ⟨body, hbody⟩ := exec_is_onAccept i s
  cases hb : s.busy with
  | true => rw [hbody, onAccept_busy hb]; nofun
  | false =>
    have hs := (busy_eq_false_iff s).1 hb
    cases hw : i.wf with
    | false => rw [hbody, onAccept_illFormed hs hw]; nofun
    | true =>
      cases i with
      | clear => rw [execClear_idle hs]; nofun
      | setPixel x y v =>
        cases hin : inBounds x y with
        | true => rw [execSetPixel_inBounds x y v hs hin]; nofun
        | false => rw [execSetPixel_outOfBounds x y v hs hin]; nofun
      | _ => rw [exec_run hs hw (Nat.succ_pos _)]; nofun

/-! ### The events of an operation -/

/-- The event of a request carries its answer. -/
@[simp] theorem PortRequest.answer_event (r : PortRequest) (a : Answer) : (r.event a).answer = a := by cases r <;> rfl

theorem State.answer_of_mem_okEvents {s : State} {op : Op} {k : Nat} {e : Event} (h : e ∈ s.okEvents op k) :
    e.answer = .ok := by
  obtain ⟨n, -, rfl⟩ := List.mem_map.1 h
  exact PortRequest.answer_event _ _

@[simp] theorem State.length_okEvents (s : State) (op : Op) (k : Nat) : (s.okEvents op k).length = k := by
  simp [State.okEvents]

/-- The operations that make transfers, as R200's table lists them. -/
def Transfers (op : Op) : Prop := op = .init ∨ op = .command ∨ op = .data ∨ op = .showFb

/-- A step that makes a transfer or drives `DC` is one of theirs (R132, R133). -/
theorem transfers_of_portStep {s : State} {op : Op} {n : Nat} (hn : n < op.events)
    (h : (∃ bytes, s.portStep op n = .send bytes) ∨ ∃ lv, s.portStep op n = .drive .dc lv) : Transfers op := by
  cases op with
  | init | command | data | showFb => simp [Transfers]
  | backlight => simp [State.portStep] at h
  | reset => simp only [State.portStep] at h; split at h <;> simp at h
  | clear | setPixel => exact absurd hn (Nat.not_lt_zero n)

/-- Which operations drive which pin, as R200's table lists them. -/
def PinOf (p : Pin) (op : Op) : Prop :=
  p = .rst ∧ (op = .init ∨ op = .reset) ∨ p = .bl ∧ op = .backlight ∨ p = .dc ∧ Transfers op

theorem pinOf_of_portStep {s : State} {op : Op} {n : Nat} {p : Pin} {lv : Level} (hn : n < op.events)
    (h : s.portStep op n = .drive p lv) : PinOf p op := by
  obtain rfl | hrst | hbl := drives_cases ⟨s, n, lv, h⟩
  · exact .inr (.inr ⟨rfl, transfers_of_portStep hn (.inr ⟨lv, h⟩)⟩)
  · exact .inl hrst
  · exact .inr (.inl hbl)

/-! ### The table of results -/

/-- A `SET_PIXEL` whose pixel is off the screen (R111). -/
def OffScreen (i : Instr) : Prop := ∃ x y v, i = .setPixel x y v ∧ (128 ≤ x.toNat ∨ 64 ≤ y.toNat)

theorem offScreen_setPixel_iff (x y : Operand) (v : Bool) : OffScreen (.setPixel x y v) ↔ inBounds x y = false := by
  rw [Bool.eq_false_iff, ne_eq, inBounds_iff]
  constructor
  · rintro ⟨_, _, _, ⟨⟩, h⟩
    omega
  · exact fun h => ⟨x, y, v, rfl, by omega⟩

/-- R200's table: the statuses an operation ends with, and behind which events of its own it does. -/
inductive Ended : Instr → Status → List Event → Prop
  | ok {i : Instr} {es : List Event} (hon : ¬ OffScreen i) (hlen : es.length = i.op.events)
      (hok : ∀ e ∈ es, e.answer = .ok) : Ended i .ok es
  | busError {i : Instr} {es : List Event} (bytes : List Byte) (hop : Transfers i.op) (hok : ∀ e ∈ es, e.answer = .ok) :
      Ended i .busError (es ++ [.bus bytes .fail])
  | pinError {i : Instr} {es : List Event} (p : Pin) (lv : Level) (hop : PinOf p i.op) (hok : ∀ e ∈ es, e.answer = .ok) :
      Ended i .pinError (es ++ [.pin p lv .fail])
  | outOfBounds {i : Instr} (hoff : OffScreen i) : Ended i .outOfBounds []

/-- An operation with port events whose step `k` is the first to fail ends with that step's error (R139, R201, R202). -/
theorem ended_of_failedStep (u : State) {i : Instr} {k : Nat} (hk : k < i.op.events) :
    Ended i (u.portStep i.op k).error (u.okEvents i.op k ++ [(u.portStep i.op k).event .fail]) := by
  have hok : ∀ e ∈ u.okEvents i.op k, e.answer = .ok := fun _ => State.answer_of_mem_okEvents
  cases hp : u.portStep i.op k with
  | drive p lv => exact .pinError p lv (pinOf_of_portStep hk hp) hok
  | send bytes => exact .busError bytes (transfers_of_portStep hk (.inl ⟨bytes, hp⟩)) hok

/-- A run of an operation's lines that does not wait ends by the table. -/
theorem State.runFrom_ended {i : Instr} {u t : State} (hp : 0 < i.op.events) (ht : t = u.runFrom i.op 0 (u.script i.op))
    (hidle : t.seq = .idle) : ∃ st es, Ended i st es ∧ t.trace = u.trace ++ es ∧ t.rsp = st.word u.opx u.opy := by
  obtain ⟨rest, -, hr⟩ | ⟨k, l, rest, hl, -, hr⟩ | ⟨k, -, -, hr⟩ := State.runFrom_cases i.op 0 (u.script i.op) u <;>
    obtain rfl := ht.trans hr
  · have hon : ¬ OffScreen i := by
      rintro ⟨x, y, v, rfl, -⟩
      exact Nat.lt_irrefl 0 hp
    exact ⟨.ok, u.okEvents i.op i.op.events, .ok hon (u.length_okEvents ..) fun _ => State.answer_of_mem_okEvents,
      by simp [State.script_okEvents], by simp⟩
  · obtain ⟨hk, hport⟩ := State.script_port_of_getElem hl
    refine ⟨_, _, ended_of_failedStep u hk, ?_, by simp [State.afterFail, hport]⟩
    rw [← State.script_take_events u i.op k hk.le, ← hport]
    simp [State.afterFail]
  · cases hidle

/-- An operation that ends does so by the table, and answers the word of its status and its own operands (R84, R200). -/
theorem exec_ended {i : Instr} {s t : State} (h : exec i s = .next t) (hidle : t.seq = .idle) :
    ∃ st es, Ended i st es ∧ t.trace = s.trace ++ es ∧
      t.rsp = st.word (fieldA (encode i).word) (fieldB (encode i).word) := by
  obtain ⟨-, -, ⟨hp, ht⟩ | ⟨x, y, v, rfl, hin, rfl⟩ | ⟨x, y, v, rfl, hoff, rfl⟩ | ⟨rfl, rfl⟩⟩ := exec_cases h
  · simpa only [State.latchOperands_trace, State.latchOperands_opx, State.latchOperands_opy] using
      State.runFrom_ended hp ht hidle
  · have hon : ¬ OffScreen (.setPixel x y v) := by simp [offScreen_setPixel_iff, hin]
    exact ⟨.ok, [], .ok hon rfl (by simp), by simp, by simp⟩
  · exact ⟨.outOfBounds, [], .outOfBounds ((offScreen_setPixel_iff x y v).2 hoff), by simp, by simp⟩
  · have hon : ¬ OffScreen .clear := by rintro ⟨x, y, v, ⟨⟩, -⟩
    exact ⟨.ok, [], .ok hon rfl (by simp), by simp, by simp⟩

/-! ### What the table says of each status -/

section
variable {i : Instr} {st : Status} {es : List Event}

/-- Behind events that were all answered `ok` no failed one stands last. -/
theorem answer_getLast?_ne_fail (hok : ∀ e ∈ es, e.answer = .ok) {e : Event} (he : es.getLast? = some e) :
    e.answer ≠ .fail := by
  rw [hok e (List.mem_of_getLast? he)]
  nofun

theorem Ended.busError_iff (h : Ended i st es) : st = .busError ↔ ∃ bytes, es.getLast? = some (.bus bytes .fail) := by
  cases h with
  | ok _ _ hok => exact ⟨nofun, fun ⟨_, hlast⟩ => absurd rfl (answer_getLast?_ne_fail hok hlast)⟩
  | busError | pinError | outOfBounds => simp

theorem Ended.pinError_iff (h : Ended i st es) : st = .pinError ↔ ∃ p l, es.getLast? = some (.pin p l .fail) := by
  cases h with
  | ok _ _ hok => exact ⟨nofun, fun ⟨_, _, hlast⟩ => absurd rfl (answer_getLast?_ne_fail hok hlast)⟩
  | busError | pinError | outOfBounds => simp

theorem Ended.outOfBounds_iff (h : Ended i st es) : st = .outOfBounds ↔ OffScreen i := by
  cases h with
  | ok hon => simp [hon]
  | busError _ hop | pinError _ _ hop =>
    refine ⟨nofun, ?_⟩
    rintro ⟨x, y, v, rfl, -⟩
    simp [PinOf, Transfers, Instr.op] at hop
  | outOfBounds hoff => simp [hoff]

/-- The events before the last one were answered `ok` (R139). -/
theorem Ended.dropLast_ok (h : Ended i st es) : ∀ e ∈ es.dropLast, e.answer = .ok := by
  cases h with
  | ok _ _ hok => exact fun e he => hok e (List.mem_of_mem_dropLast he)
  | busError _ _ hok | pinError _ _ _ hok => simpa using hok
  | outOfBounds => simp

end

/-- A status other than `OutOfBounds` answers no coordinates (R84, R200). -/
theorem Status.word_of_ne {st : Status} (h : st ≠ .outOfBounds) (x y : Operand) : st.word x y = responseWord st.code 0 0 := by
  rw [Status.word_eq, if_neg h, if_neg h]

end Sys2Proof.Machine

namespace Sys2Proof.Proofs

open Sys2Proof.Machine

/-- Settles O51: with no request there is nothing to decode. -/
theorem idleBlockWithoutRequestStays : Obligations.IdleBlockWithoutRequestStays := by
  rintro s ⟨hreqs, hs⟩
  unfold step State.runNextRequest
  rw [hs]
  simp only [hreqs]

/-- Settles O39: the step takes the operation up at its line, finds no answer, and waits there again. -/
theorem waitingBlockStaysAsItIs : Obligations.WaitingBlockStaysAsItIs := by
  rintro s hq ⟨hb, ha⟩
  obtain ⟨op, n, p, hs⟩ := (busy_eq_true_iff s).1 hb
  obtain ⟨hv, -⟩ := hq op n p hs
  refine ⟨?_, fun hf => ?_, (requestWhileBusyIsRefused s hb).1⟩
  · rw [step_of_validPosition hs hv, State.runFrom_unanswered hs hv ha]
  · cases hs.symm.trans hf.2

/-- Settles O56: a busy block stands at a position its operation has, and an idle one idles, refuses or begins an operation. -/
theorem noStepFaults : Obligations.NoStepFaults := by
  intro s hinv f
  cases hs : s.seq with
  | busy op n p =>
    rw [step_of_validPosition hs (hinv.seq op n p hs).1]
    nofun
  | idle =>
    cases hr : s.reqs with
    | nil => rw [idleBlockWithoutRequestStays s ⟨hr, hs⟩]; nofun
    | cons r rs =>
      cases hd : decode r with
      | error e => rw [step_of_decode_error hs hr hd]; nofun
      | ok i => rw [stepRunsTheDecodedRequest s r rs i hs hr hd]; exact exec_ne_fault i _ f

/-- Settles O43: an operation ends by R200's table, of which each clause reads one column. -/
theorem statusOfEveryOperation : Obligations.StatusOfEveryOperation := by
  intro i s t h hidle
  obtain ⟨st, es, hend, htrace, hrsp⟩ := exec_ended h hidle
  refine ⟨st, es, htrace, fun hst => hrsp.trans (Status.word_of_ne hst _ _), ?_, ?_, hend.busError_iff, hend.pinError_iff,
    hend.outOfBounds_iff, hend.dropLast_ok, ?_, ?_, ?_⟩
  · rintro x y v rfl
    simpa [encode] using hrsp
  · rintro rfl
    cases hend with | ok _ hlen hok => exact ⟨hlen, hok⟩
  · rintro rfl
    cases hend with | busError _ hop => exact hop
  · rintro rfl
    cases hend with | pinError p lv hop => exact ⟨p, lv, List.getLast?_concat, hop⟩
  · intro hst
    obtain ⟨x, y, v, rfl, -⟩ := hend.outOfBounds_iff.1 hst
    rfl

end Sys2Proof.Proofs
end

section
/-! SUPPORT. The statement about power-on reset from any condition (R230, R231). -/

namespace Sys2Proof.Proofs

open Sys2Proof.Machine

/-- Settles O12: outside `free`, a power cycle gives the power-on state for the parameters and the sink the block had, so
each clause is one of O11's. -/
theorem powerCycleFromAnyCondition : Obligations.PowerCycleFromAnyCondition := by
  intro s o b m rs as
  obtain ⟨hlc, hdc, hrst, hbl, hseq, -, htrace, -, horient, hbias, hfb, hparams, hsink⟩ :=
    powerOnState s.params o b m s.sink rs as
  exact ⟨hseq, hlc, hdc, hrst, hbl, htrace, horient, hbias, hfb, hparams, hsink⟩

end Sys2Proof.Proofs
end
